-- ==== Sys2Proof/Word.lean ====
section
/-! DEFINITION. The word types of the block's formats (R40, 30_encoding.md). -/

namespace Sys2Proof

/-- Format `MODE3`: a mode code. All eight values are legal (R46). -/
abbrev ModeCode := BitVec 3

/-- Format `Q8.8`: a temperature in 1/256 degrees Celsius, two's complement (R47). -/
abbrev TempWord := BitVec 16

/-- Format `F34`: the command frame (R41). -/
abbrev FrameWord := BitVec 34

/-- Format `TXW`: one TX event as the word `{kind[2:0], arg[15:0]}` (R51). -/
abbrev TxWord := BitVec 19

end Sys2Proof
end

