-- ==== Sys2Proof/Config.lean ====
section
/-! DEFINITION. The parameters of the hardware (R6, 00_scope.md): "fixed protocol constants", changed by no
operation (R21, 10_state.md). Durations are counts of units. -/

namespace Sys2Proof.Config

/-- `BIT_COUNT`: bits in a frame and steps in one bit run (R6, R53). -/
def bitCount : Nat := 34

/-- `REPEAT_COUNT`: repetitions in one transmission (R6). -/
def repeatCount : Nat := 3

/-- `HEADER_MARK`, in units (R6, R80). -/
def headerMark : Nat := 3

/-- `HEADER_SPACE`, in units: the initial value of `PENDING` in every repetition (R6, R81; 90_conflicts.md C1). -/
def headerSpace : Nat := 3

/-- `FOOTER_MARK`, in units (R6, R80). -/
def footerMark : Nat := 4

/-- `CARRIER_HZ` (R6, R80). -/
def carrierHz : Nat := 38000

/-- `TEMP_MIN`, degrees Celsius (R6, R71). -/
def tempMin : Int := 16

/-- `TEMP_MAX`, degrees Celsius (R6, R71). -/
def tempMax : Int := 30

/-- `TEMP_OFFSET` (R6, R44). -/
def tempOffset : Int := 15

/-- `TEMP_F`: the number of fraction bits of `TEMP_IN` (R6, R47). -/
def tempFractionBits : Nat := 8

/-- `FAN_FIELD`: the fan field of every built frame, Auto (R6, R43). -/
def fanField : BitVec 2 := 0b11

/-- `PREV_MODE_INIT` of the state `State.reset`. DESIGN CHOICE (log entry 2), unsafe: the spec leaves it OPEN
(R6, R23; 92_eei_decisions.md D7). The operation RESET does not use this value: it takes `INIT_MODE`. -/
def prevModeInit : ModeCode := 0b000

/-- `TIME_UNIT`: the physical length of one unit, "a positive real number of seconds" (R6). OPEN: no rule reads it, so it
is an argument of the one function that uses it and no field of the state (log entry 12). -/
structure TimeUnit where
  /-- The length in seconds. -/
  seconds : ℝ
  /-- "positive" (R6). -/
  positive : 0 < seconds

end Sys2Proof.Config
end

