-- ==== Sys2Proof/Syntax.lean ====
section
/-! DEFINITION. The instructions: one constructor per row of spec/opcode_table.json (R56, 30_encoding.md), and
the words they are read from. -/

namespace Sys2Proof

/-- The rows of the opcode table: operations, micro-steps of the pulse encoder, frame words, event words. -/
inductive Instr where
  /-- `NOP` (R101). -/
  | nop
  /-- `CONTROL mode, temp` (R100). -/
  | control (mode : ModeCode) (temp : TempWord)
  /-- `FE.BUILD mode, temp, prev` (R65). -/
  | feBuild (mode : ModeCode) (temp : TempWord) (prev : ModeCode)
  /-- `PE.ENCODE frame` (R90). -/
  | peEncode (frame : FrameWord)
  /-- `TRK.READ` (R60). -/
  | trkRead
  /-- `TRK.UPDATE mode` (R61). -/
  | trkUpdate (mode : ModeCode)
  /-- `OP.RESERVED`: the codes `0b110` and `0b111`; `low` is bit 0 of the code (R49, R102). -/
  | opReserved (low : BitVec 1)
  /-- `RESET mode`, the pin `RST` with the operand `INIT_MODE` (R125). -/
  | reset (initMode : ModeCode)
  /-- `PE.STEP.S0` (R83). -/
  | peStepS0
  /-- `PE.STEP.S1` (R82). -/
  | peStepS1
  /-- `PE.STEP.M0` (R85). -/
  | peStepM0
  /-- `PE.STEP.M1` (R84). -/
  | peStepM1
  /-- `PE.HEADER` (R81). -/
  | peHeader
  /-- `PE.TRAIL` (R87). -/
  | peTrail
  /-- `PE.FOOTER` (R89). -/
  | peFooter
  /-- `FRAME.COOL`: a frame with mode field `0b001` (R56, R67). -/
  | frameCool (power : BitVec 1) (temperature : BitVec 4)
  /-- `FRAME.HEAT`: a frame with mode field `0b010` (R56, R68). -/
  | frameHeat (power : BitVec 1) (temperature : BitVec 4)
  /-- `FRAME.AUTO`: a frame with mode field `0b011` (R56, R69). -/
  | frameAuto (power : BitVec 1) (temperature : BitVec 4)
  /-- `FRAME.OFF`: a frame with mode field `0b111`, power fixed 0 (R56, R70). -/
  | frameOff (temperature : BitVec 4)
  /-- `FRAME.DRY`: a frame with mode field `0b100`, never built by the block (R52, R56). -/
  | frameDry (power : BitVec 1) (temperature : BitVec 4)
  /-- `FRAME.FAN`: a frame with mode field `0b101`, never built by the block (R52, R56). -/
  | frameFan (power : BitVec 1) (temperature : BitVec 4)
  /-- `TX.BEGIN`: the event word of kind `0b000` (R51). -/
  | txBegin (arg : BitVec 16)
  /-- `TX.CARRIER`: the event word of kind `0b001` (R51). -/
  | txCarrier (hz : BitVec 16)
  /-- `TX.SPACE`: the event word of kind `0b010` (R51). -/
  | txSpace (units : BitVec 16)
  /-- `TX.MARK`: the event word of kind `0b011` (R51). -/
  | txMark (units : BitVec 16)
  /-- `TX.SEND`: the event word of kind `0b100` (R51). -/
  | txSend (arg : BitVec 16)
  deriving DecidableEq, Repr

/-- The input ports (R19, 10_state.md). -/
structure Ports where
  /-- `RST`: 1 requests RESET and overrides `OP` (R126). -/
  rst : BitVec 1
  /-- `INIT_MODE`: the operand of RESET. -/
  initMode : ModeCode
  /-- `OP`: the operation code (R48). -/
  op : BitVec 3
  /-- `MODE_IN`: the requested mode, or the mode to store. -/
  modeIn : ModeCode
  /-- `TEMP_IN`: the target temperature (R47). -/
  tempIn : TempWord
  /-- `PREV_IN`: the previous mode as an explicit operand. -/
  prevIn : ModeCode
  /-- `FRAME_IN`: the frame to serialize. -/
  frameIn : FrameWord
  deriving DecidableEq, Repr

/-- All input ports zero: `RST = 0` and `OP` = NOP, with zero on every operand port. -/
def Ports.zero : Ports :=
  { rst := 0, initMode := 0, op := 0, modeIn := 0, tempIn := 0, prevIn := 0, frameIn := 0 }

/-- What an instruction is read from: a word of one of the formats of R40 and R56. `OP3` and `PIN` are both
read from the ports, so that `RST` overrides `OP` in one place (R126). -/
inductive Encoding where
  /-- Formats `OP3` and `PIN`: the input ports as they stand. -/
  | ports (p : Ports)
  /-- Format `STEP2`: the selector `{NEXT_TYPE, bit}` of a bit step (R50). -/
  | step2 (sel : BitVec 2)
  /-- Format `SEQ`: the register `PHASE` (R17). -/
  | seq (phase : BitVec 3)
  /-- Format `F34`: a frame word (R41). -/
  | f34 (frame : FrameWord)
  /-- Format `TXW`: an event word (R51). -/
  | txw (word : TxWord)
  deriving DecidableEq, Repr

end Sys2Proof
end

