-- ==== Sys2Proof/WellFormed.lean ====
section
/-! DEFINITION. Well-formed instructions: the free fields of a row hold a value that the spec says the row has.
A frame row outside them still has its meaning, since PE.ENCODE checks nothing (R52; log entry 7); an event row outside
them is no event that the block hands over (R51; log entry 8). -/

namespace Sys2Proof

/-- The temperature field of a frame kind is 1 to 15 (R44, R56). -/
def temperatureWf (temperature : BitVec 4) : Bool := temperature != 0

/-- A pulse has 1 to 4 units (R51). -/
def unitsWf (units : BitVec 16) : Bool := decide (1 ≤ units.toNat ∧ units.toNat ≤ 4)

/-- The check of every row: operand ports and micro-steps have no illegal value (R46, R47, R52); frame kinds
have a temperature field of 1 to 15 (R56); event words have the arg of R51. -/
def Instr.wf : Instr → Bool
  | .nop => true
  | .control _ _ => true
  | .feBuild _ _ _ => true
  | .peEncode _ => true
  | .trkRead => true
  | .trkUpdate _ => true
  | .opReserved _ => true
  | .reset _ => true
  | .peStepS0 => true
  | .peStepS1 => true
  | .peStepM0 => true
  | .peStepM1 => true
  | .peHeader => true
  | .peTrail => true
  | .peFooter => true
  | .frameCool _ t => temperatureWf t
  | .frameHeat _ t => temperatureWf t
  | .frameAuto _ t => temperatureWf t
  | .frameOff t => temperatureWf t
  | .frameDry _ t => temperatureWf t
  | .frameFan _ t => temperatureWf t
  | .txBegin arg => arg == 0
  | .txCarrier hz => hz.toNat == Config.carrierHz
  | .txSpace n => unitsWf n
  | .txMark n => unitsWf n
  | .txSend arg => arg == 0

end Sys2Proof
end

