-- ==== Sys2Proof/Decode.lean ====
section
/-! DEFINITION. The encodings (30_encoding.md): mode codes, the frame layout, the operation codes, the selectors
and the event words; the decoder, total on every word and rejecting by name; the encoder. -/

namespace Sys2Proof

/-! Mode codes (R42, R46). -/

namespace Mode
/-- `COOL = 0b001`. -/
def cool : ModeCode := 0b001
/-- `HEAT = 0b010`. -/
def heat : ModeCode := 0b010
/-- `AUTO = 0b011`. -/
def auto : ModeCode := 0b011
/-- `DRY = 0b100`: has a frame code, is an unrecognized request (R46). -/
def dry : ModeCode := 0b100
/-- `FAN = 0b101`: has a frame code, is an unrecognized request (R46). -/
def fan : ModeCode := 0b101
/-- `OFF = 0b111`. -/
def off : ModeCode := 0b111
end Mode

/-! Fan codes (R43). -/

namespace FanCode
/-- `Low = 0b00`: never emitted. -/
def low : BitVec 2 := 0b00
/-- `Medium = 0b01`: never emitted. -/
def medium : BitVec 2 := 0b01
/-- `High = 0b10`: never emitted. -/
def high : BitVec 2 := 0b10
/-- `Auto = 0b11`: the fan field of every built frame. -/
def auto : BitVec 2 := 0b11
end FanCode

/-! The frame layout (R41). -/

/-- The twelve fields of a frame, most significant first, under the names of R41. -/
structure FrameFields where
  power : BitVec 1
  mode : ModeCode
  fan : BitVec 2
  zeros4 : BitVec 2
  swing : BitVec 1
  ifeel : BitVec 1
  zeros3 : BitVec 1
  temperature : BitVec 4
  sleep : BitVec 1
  zeros2 : BitVec 16
  one : BitVec 1
  zero : BitVec 1
  deriving DecidableEq, Repr

/-- The 34 bits of the twelve fields, `power` in bit 33 and `zero` in bit 0 (R41). -/
def packFrame (x : FrameFields) : FrameWord :=
  x.power ++ x.mode ++ x.fan ++ x.zeros4 ++ x.swing ++ x.ifeel ++ x.zeros3 ++ x.temperature ++ x.sleep
    ++ x.zeros2 ++ x.one ++ x.zero

/-- The twelve fields of 34 bits, each at the bit positions of R41. -/
def unpackFrame (f : FrameWord) : FrameFields :=
  { power := f.extractLsb' 33 1
    mode := f.extractLsb' 30 3
    fan := f.extractLsb' 28 2
    zeros4 := f.extractLsb' 26 2
    swing := f.extractLsb' 25 1
    ifeel := f.extractLsb' 24 1
    zeros3 := f.extractLsb' 23 1
    temperature := f.extractLsb' 19 4
    sleep := f.extractLsb' 18 1
    zeros2 := f.extractLsb' 2 16
    one := f.extractLsb' 1 1
    zero := f.extractLsb' 0 1 }

/-- `base()`: all zero but framing-one, and fan = Auto (R66). -/
def baseFields : FrameFields :=
  { power := 0, mode := 0, fan := Config.fanField, zeros4 := 0, swing := 0, ifeel := 0, zeros3 := 0,
    temperature := 0, sleep := 0, zeros2 := 0, one := 1, zero := 0 }

/-- The frame of a kind: `base()` with its mode, power and temperature fields (R56, R65). -/
def kindFrame (mode : ModeCode) (power : BitVec 1) (temperature : BitVec 4) : FrameWord :=
  packFrame { baseFields with mode := mode, power := power, temperature := temperature }

/-! Event words (R51). -/

/-- The event word `{kind, arg}`. -/
def txWord (kind : BitVec 3) (arg : BitVec 16) : TxWord := kind ++ arg

/-- The field `kind` of an event word, bits 18 to 16. -/
def txKind (w : TxWord) : BitVec 3 := w.extractLsb' 16 3

/-- The field `arg` of an event word, bits 15 to 0. -/
def txArg (w : TxWord) : BitVec 16 := w.extractLsb' 0 16

/-! The decoder. -/

/-- Why a word is no row of the opcode table. -/
inductive Reject where
  /-- Raised for a `SEQ` word that names no micro-step of its own: IDLE, BITS (whose micro-steps are selected
  by `STEP2`) and the codes 5 to 7 that `PHASE` never holds (R17). Safe: nothing runs. -/
  | noMicroStep (phase : BitVec 3)
  /-- Raised for 34 bits that are no frame of the six kinds of R56. Safe: nothing runs; `PE.ENCODE` takes
  every frame (R52). -/
  | noFrameKind (frame : FrameWord)
  /-- Raised for an event word of a kind "never produced" (R51). Safe: nothing runs. -/
  | noEventKind (kind : BitVec 3)
  deriving DecidableEq, Repr

/-- The operation the ports ask for: `RST = 1` overrides `OP` (R126), and the code on `OP` selects the
operation, which reads only its own operand ports (R48, R19). -/
def decodePorts (p : Ports) : Instr :=
  if p.rst = 1 then .reset p.initMode
  else if p.op = 0b000 then .nop
  else if p.op = 0b001 then .control p.modeIn p.tempIn
  else if p.op = 0b010 then .feBuild p.modeIn p.tempIn p.prevIn
  else if p.op = 0b011 then .peEncode p.frameIn
  else if p.op = 0b100 then .trkRead
  else if p.op = 0b101 then .trkUpdate p.modeIn
  else .opReserved (p.op.extractLsb' 0 1)

/-- The case of a bit step: bit 1 is `NEXT_TYPE` (Space 0, Mark 1), bit 0 the frame bit (R50). -/
def decodeStep2 (sel : BitVec 2) : Instr :=
  if sel = 0b00 then .peStepS0
  else if sel = 0b01 then .peStepS1
  else if sel = 0b10 then .peStepM0
  else .peStepM1

/-- The micro-step that a value of `PHASE` selects by itself (R17, R56). -/
def decodeSeq (phase : BitVec 3) : Except Reject Instr :=
  if phase = 1 then .ok .peHeader
  else if phase = 3 then .ok .peTrail
  else if phase = 4 then .ok .peFooter
  else .error (.noMicroStep phase)

/-- The frame kind of 34 bits, by the match and mask columns of R56. -/
def decodeFrame (f : FrameWord) : Except Reject Instr :=
  let power := (unpackFrame f).power
  let temperature := (unpackFrame f).temperature
  if f &&& 0x1FF87FFFF = 0x070000002 then .ok (.frameCool power temperature)
  else if f &&& 0x1FF87FFFF = 0x0B0000002 then .ok (.frameHeat power temperature)
  else if f &&& 0x1FF87FFFF = 0x0F0000002 then .ok (.frameAuto power temperature)
  else if f &&& 0x3FF87FFFF = 0x1F0000002 then .ok (.frameOff temperature)
  else if f &&& 0x1FF87FFFF = 0x130000002 then .ok (.frameDry power temperature)
  else if f &&& 0x1FF87FFFF = 0x170000002 then .ok (.frameFan power temperature)
  else .error (.noFrameKind f)

/-- The event kind of an event word (R51). -/
def decodeTx (w : TxWord) : Except Reject Instr :=
  if txKind w = 0b000 then .ok (.txBegin (txArg w))
  else if txKind w = 0b001 then .ok (.txCarrier (txArg w))
  else if txKind w = 0b010 then .ok (.txSpace (txArg w))
  else if txKind w = 0b011 then .ok (.txMark (txArg w))
  else if txKind w = 0b100 then .ok (.txSend (txArg w))
  else .error (.noEventKind (txKind w))

/-- The decoder: total on every word of every format. -/
def decode : Encoding → Except Reject Instr
  | .ports p => .ok (decodePorts p)
  | .step2 sel => .ok (decodeStep2 sel)
  | .seq phase => decodeSeq phase
  | .f34 f => decodeFrame f
  | .txw w => decodeTx w

/-! The encoder, written from the tables of R48, R50, R51 and R56; ports an operation does not use are zero. -/

/-- The word of an instruction in its own format. -/
def encode : Instr → Encoding
  | .nop => .ports { Ports.zero with op := 0b000 }
  | .control m t => .ports { Ports.zero with op := 0b001, modeIn := m, tempIn := t }
  | .feBuild m t prev => .ports { Ports.zero with op := 0b010, modeIn := m, tempIn := t, prevIn := prev }
  | .peEncode f => .ports { Ports.zero with op := 0b011, frameIn := f }
  | .trkRead => .ports { Ports.zero with op := 0b100 }
  | .trkUpdate m => .ports { Ports.zero with op := 0b101, modeIn := m }
  | .opReserved low => .ports { Ports.zero with op := 0b11#2 ++ low }
  | .reset m => .ports { Ports.zero with rst := 1, initMode := m }
  | .peStepS0 => .step2 0b00
  | .peStepS1 => .step2 0b01
  | .peStepM0 => .step2 0b10
  | .peStepM1 => .step2 0b11
  | .peHeader => .seq 1
  | .peTrail => .seq 3
  | .peFooter => .seq 4
  | .frameCool power t => .f34 (kindFrame Mode.cool power t)
  | .frameHeat power t => .f34 (kindFrame Mode.heat power t)
  | .frameAuto power t => .f34 (kindFrame Mode.auto power t)
  | .frameOff t => .f34 (kindFrame Mode.off 0 t)
  | .frameDry power t => .f34 (kindFrame Mode.dry power t)
  | .frameFan power t => .f34 (kindFrame Mode.fan power t)
  | .txBegin arg => .txw (txWord 0b000 arg)
  | .txCarrier hz => .txw (txWord 0b001 hz)
  | .txSpace n => .txw (txWord 0b010 n)
  | .txMark n => .txw (txWord 0b011 n)
  | .txSend arg => .txw (txWord 0b100 arg)

/-! The opcode table's words (log entry 6). -/

/-- The word of the format whose width is `nbits` bits, or `nbits` in whole bytes: one byte is `OP3` (the formats
`PIN`, `STEP2` and `SEQ` are narrower or select inside the block, and share its values), three bytes `TXW`,
five bytes `F34`. The ports that the word gives no bits to are zero. A number too large for the format is no
word of it. -/
def tableEncoding (nbits w : Nat) : Option Encoding :=
  if nbits = 3 ∨ nbits = 8 then
    if w < 2 ^ 3 then some (.ports { Ports.zero with op := BitVec.ofNat 3 w }) else none
  else if nbits = 19 ∨ nbits = 24 then
    if w < 2 ^ 19 then some (.txw (BitVec.ofNat 19 w)) else none
  else if nbits = 34 ∨ nbits = 40 then
    if w < 2 ^ 34 then some (.f34 (BitVec.ofNat 34 w)) else none
  else if nbits = 1 then
    if w < 2 ^ 1 then some (.ports { Ports.zero with rst := BitVec.ofNat 1 w }) else none
  else if nbits = 2 then
    if w < 2 ^ 2 then some (.step2 (BitVec.ofNat 2 w)) else none
  else none

/-- The instruction the decoder reads from a word of the opcode table. -/
def decodeTableWord (nbits w : Nat) : Option Instr :=
  match tableEncoding nbits w with
  | none => none
  | some e =>
    match decode e with
    | .ok i => some i
    | .error _ => none

end Sys2Proof
end

