-- ==== Sys2Proof/Machine/State.lean ====
section
/-! DEFINITION. The state of the block (R10 to R20, 10_state.md), what is presented to it, its reset values
(R23), and the ways a step can stop. -/

namespace Sys2Proof.Machine

/-- A pulse type, the values of `NEXT_TYPE` (R14): carrier off or carrier on. -/
inductive PulseType where
  | space
  | mark
  deriving DecidableEq, Repr

/-- The values of `PHASE` (R17). -/
inductive Phase where
  | idle
  | header
  | bits
  | trail
  | footer
  deriving DecidableEq, Repr

/-- A TX event (R18, R51): one call of the transmitter. R51 allows the inductive type in place of the word. -/
inductive TxEvent where
  /-- `Begin`, the call `beginFrame()`. -/
  | beginFrame
  /-- `Carrier(hz)`, the call `setCarrierFrequency(hz)`. -/
  | carrier (hz : Nat)
  /-- `Space(n)`: `n` units with the carrier off. -/
  | space (n : Nat)
  /-- `Mark(n)`: `n` units with the carrier on. -/
  | mark (n : Nat)
  /-- `Send`, the call `send()`. -/
  | send
  deriving DecidableEq, Repr

/-- What is presented to the block for its next operation. MODEL'S OWN (log entries 1 and 7). No event can be
presented: TX is an output, and only PE.ENCODE and CONTROL call `TxEmit` (R18, R20). -/
inductive Request where
  /-- A transaction of the host: the input ports of R19. -/
  | ports (p : Ports)
  /-- A frame word of the opcode table's format `F34`. -/
  | frameWord (f : FrameWord)
  deriving DecidableEq, Repr

structure State where
  /-- `PREV_MODE`, 3 bits (R11). -/
  prevMode : ModeCode
  /-- `FRAME`, 34 bits, shown on `FRAME_OUT` at all times (R12, R20). -/
  frame : FrameWord
  /-- `PENDING`, 3 bits: the units of the pulse that is open and not yet handed over (R13). -/
  pending : BitVec 3
  /-- `NEXT_TYPE`, 1 bit: the type of the pending pulse (R14). -/
  nextType : PulseType
  /-- `BITIDX`, 6 bits: the index of the frame bit the next bit step consumes (R15). -/
  bitIdx : BitVec 6
  /-- `REP`, 2 bits: the repetitions completed in the current transmission (R16). -/
  rep : BitVec 2
  /-- `PHASE` (R17). -/
  phase : Phase
  /-- The output port `MODE_OUT`, 3 bits, which holds its value (R20). -/
  modeOut : ModeCode
  /-- The TX stream, oldest event first (R18). -/
  tx : List TxEvent
  /-- The call of `TxEmit` outside the micro-steps that the PE.ENCODE or CONTROL in progress makes next: its `Send`
while a transmission runs (R90), none between operations (R18). MODEL'S OWN (log entry 8). -/
  txCall : Option TxWord
  /-- Whether a RESET has been performed since power-on (R127). MODEL'S OWN (log entry 3). -/
  resetDone : Bool
  /-- What is presented for the next operation. MODEL'S OWN (log entry 1). -/
  request : Request
  deriving DecidableEq, Repr

/-- There is no fault: "The set of synchronous exceptions is empty" (R110, R113). -/
inductive Fault where
  deriving DecidableEq, Repr

/-- The ways a step can answer that an instruction has no meaning. -/
inductive Refusal where
  /-- Raised by `exec` for an instruction that has no meaning yet; no arm raises it. Safe. -/
  | notModelled (mnemonic : String)
  /-- Raised by `OP.RESERVED`: "A model refuses them: it gives the operation no meaning and marks the run as
  refused" (R102). Safe: the hardware goes on with no effect, and no claim can rest on it. -/
  | reservedOp
  /-- Raised by `CONTROL` and `TRK.READ` before any RESET: a read of "a register nothing has written" (R127; U3 of
  93_implementation_defined.md; log entry 3). Safe. -/
  | beforeReset
  /-- Raised by `step` for a word that is no row of the opcode table (log entry 15). Safe. -/
  | undecodable (why : Reject)
  deriving DecidableEq, Repr

/-- The output port `FRAME_OUT`: "the current value of `FRAME`" (R20). -/
def State.frameOut (s : State) : FrameWord := s.frame

/-- The machine right after RESET (R23) with `INIT_MODE` = `Config.prevModeInit` (log entry 2) and all input
ports zero (log entry 4). -/
def State.reset : State :=
  { prevMode := Config.prevModeInit
    frame := 0
    pending := 0
    nextType := .space
    bitIdx := 0
    rep := 0
    phase := .idle
    modeOut := Config.prevModeInit
    tx := []
    txCall := none
    resetDone := true
    request := .ports Ports.zero }

end Sys2Proof.Machine
end

