-- ==== Sys2Proof/Machine/Operands.lean ====
section
/-! DEFINITION. The operand forms: recognized modes (R46), the temperature of a `Q8.8` operand (R47) and its
frame field (R71), both on the port value and on the rational the rules are stated on. -/

namespace Sys2Proof.Machine

/-- `clamp(x, lo, hi)` (R8). -/
def clamp {α : Type} [LT α] [DecidableLT α] (x lo hi : α) : α :=
  if x < lo then lo else if hi < x then hi else x

/-- The recognized mode codes: Cool, Heat, Auto and Off (R46). -/
def recognized (m : ModeCode) : Bool :=
  m == Mode.cool || m == Mode.heat || m == Mode.auto || m == Mode.off

/-- `ti = sext(TEMP_IN)` read as a signed integer: the temperature in 1/256 degrees Celsius (R47, R71). -/
def tempUnits (t : TempWord) : Int := t.toInt

/-- A whole number of degrees Celsius in 1/256 degrees: 16 is `0x1000`, 30 is `0x1E00` (R47, R71). -/
def degrees (d : Int) : Int := d * 2 ^ Config.tempFractionBits

/-- The clamped and rounded temperature `T` of an operand: `c <- clamp(ti, 0x1000, 0x1E00)`;
`T <- (c + 0x80) >> 8`, floor division by 256 (R71). -/
def roundedTemp (t : TempWord) : Int :=
  (clamp (tempUnits t) (degrees Config.tempMin) (degrees Config.tempMax) + 0x80) / 2 ^ Config.tempFractionBits

/-- `temp_field(t)`, the 4-bit field `T - 15` (R44, R71). -/
def tempField (t : TempWord) : BitVec 4 := BitVec.ofInt 4 (roundedTemp t - Config.tempOffset)

/-- The temperature `t = sext(TEMP_IN) / 256` in degrees Celsius, as a rational (R47). -/
def tempCelsius (t : TempWord) : ℚ := (tempUnits t : ℚ) / 256

/-- `round_half_up(x)`: the integer `floor(x + 1/2)` (R8). -/
def roundHalfUp (x : ℚ) : ℤ := ⌊x + 1 / 2⌋

/-- `temp_field` on a rational temperature: clamp, then round, then subtract 15 (R71). -/
def tempFieldCelsius (t : ℚ) : ℤ := roundHalfUp (clamp t 16 30) - 15

/-- A frame taken from a wider container: its low 34 bits, the rest ignored (R32). -/
def frameFromWide {n : Nat} (w : BitVec n) : FrameWord := w.setWidth 34

/-- A frame carried in a container of `n` bits, the higher bits zero (R32). -/
def frameToWide (n : Nat) (f : FrameWord) : BitVec n := f.setWidth n

end Sys2Proof.Machine
end

