-- ==== Sys2Proof/Machine/Ops.lean ====
section
/-! DEFINITION. The named operations on the state that the pseudocode of the rules uses: the register writes, the
one output primitive `TxEmit`, and the tail `advance()` of a bit step. The block has no memory (R30), and no
exception is ever taken or returned from (R110, R113, R114), so there is no operation for either. -/

namespace Sys2Proof.Machine

/-- `TxEmit(e)`: "append event `e` to the end of the TX stream" (R8, R18, R35). -/
def State.txEmit (s : State) (e : TxEvent) : State :=
  { s with tx := s.tx ++ [e] }

/-- The word of an event (R51). -/
def TxEvent.word : TxEvent → TxWord
  | .beginFrame => txWord 0b000 0
  | .carrier hz => txWord 0b001 (BitVec.ofNat 16 hz)
  | .space n => txWord 0b010 (BitVec.ofNat 16 n)
  | .mark n => txWord 0b011 (BitVec.ofNat 16 n)
  | .send => txWord 0b100 0

/-- The events that the block hands over: the carrier is "always 38000", a pulse has 1 to 4 units (R51). -/
def TxEvent.produced : TxEvent → Bool
  | .beginFrame => true
  | .carrier hz => hz == Config.carrierHz
  | .space n => decide (1 ≤ n ∧ n ≤ 4)
  | .mark n => decide (1 ≤ n ∧ n ≤ 4)
  | .send => true

/-- What call of `TxEmit` the operation in progress makes next (R18, R90). -/
def State.setTxCall (s : State) (c : Option TxWord) : State :=
  { s with txCall := c }

/-- The call of `TxEmit` with the word `w` is performed: the event `e` of that word is appended and the call is over.
"Only PE.ENCODE and CONTROL call `TxEmit`" (R18), so where the operation in progress does not make this call, or `w`
is no word of an event that the block hands over (R51), nothing is appended and nothing changes (log entry 8). -/
def State.serveCall (s : State) (w : TxWord) (e : TxEvent) : State :=
  if s.txCall = some w ∧ e.word = w ∧ e.produced = true then (s.txEmit e).setTxCall none else s

/-- A read of `PREV_MODE` before any RESET is refused (R127; log entry 3). -/
def State.ifReset (s : State) (s' : State) : Host.Outcome State Fault Refusal :=
  if s.resetDone = true then .next s' else .refused .beforeReset

/-- `PREV_MODE <- m`, all 3 bits as given (R61, R62). -/
def State.setPrevMode (s : State) (m : ModeCode) : State :=
  { s with prevMode := m }

/-- `MODE_OUT <- m` (R60). -/
def State.setModeOut (s : State) (m : ModeCode) : State :=
  { s with modeOut := m }

/-- `FRAME <- f` (R12). -/
def State.setFrame (s : State) (f : FrameWord) : State :=
  { s with frame := f }

/-- `PENDING <- p ; NEXT_TYPE <- nt`: the pulse that is open from now on (R13, R14). -/
def State.setPulse (s : State) (p : BitVec 3) (nt : PulseType) : State :=
  { s with pending := p, nextType := nt }

/-- `PHASE <- ph`, and with it `REP` and `BITIDX`: a write of the sequencer position
`SEQ = (PHASE, REP, BITIDX)` (R8, R17). -/
def State.setSeq (s : State) (ph : Phase) (rep : BitVec 2) (idx : BitVec 6) : State :=
  { s with phase := ph, rep := rep, bitIdx := idx }

/-- `advance()`, the tail of every `PE.STEP` (R95). -/
def State.advance (s : State) : State :=
  if s.bitIdx = 0 then s.setSeq .trail s.rep s.bitIdx
  else s.setSeq s.phase s.rep (s.bitIdx - 1)

/-- `FRAME[BITIDX]`, the frame bit a bit step consumes (R82, R86). An index above 33, which no run reaches, reads
0 (log entry 10). -/
def State.currentBit (s : State) : Bool := s.frame.getLsbD s.bitIdx.toNat

end Sys2Proof.Machine
end

