-- ==== Sys2Proof/Machine/FrameEncoder.lean ====
section
/-! DEFINITION. The FrameEncoder (41_frame_encoder.md): `build`, and the operation `FE.BUILD`. -/

namespace Sys2Proof.Machine

/-- `mode_and_power(m, prev)`: the four arms of the source's step 4 (R67, R68, R69, R70). The power bit asks for
a toggle only when a recognized on-mode is requested and the previous mode is Off (R73). -/
def modeAndPower (m prev : ModeCode) : ModeCode × BitVec 1 :=
  if m = Mode.cool then (Mode.cool, if prev = Mode.off then 1 else 0)
  else if m = Mode.heat then (Mode.heat, if prev = Mode.off then 1 else 0)
  else if m = Mode.auto then (Mode.auto, if prev = Mode.off then 1 else 0)
  else (Mode.off, 0)

/-- The fields of `build(m, t, prev)`: `base()` with mode, power and temperature written (R65, R66). -/
def buildFields (m : ModeCode) (t : TempWord) (prev : ModeCode) : FrameFields :=
  { baseFields with
    mode := (modeAndPower m prev).1
    power := (modeAndPower m prev).2
    temperature := tempField t }

/-- `build(m, t, prev)`, total on every operand (R65, R72). -/
def build (m : ModeCode) (t : TempWord) (prev : ModeCode) : FrameWord :=
  packFrame (buildFields m t prev)

/-- `FE.BUILD`: `FRAME <- build(MODE_IN, t, PREV_IN)` (R65). It reads no register. -/
def execFeBuild (m : ModeCode) (t : TempWord) (prev : ModeCode) (s : State) : Host.Outcome State Fault Refusal :=
  .next (s.setFrame (build m t prev))

end Sys2Proof.Machine
end

