-- ==== Sys2Proof/Machine/Flags.lean ====
section
/-! DEFINITION. The block's only predicate state is `NEXT_TYPE` (R14): "The block has no other flags, condition
codes or status bits". Here: its bit code, and the selector of a bit step that it forms with the frame bit. -/

namespace Sys2Proof.Machine

/-- A pulse type as a bit: `Space = 0`, `Mark = 1` (R50). -/
def PulseType.bit : PulseType → BitVec 1
  | .space => 0
  | .mark => 1

/-- The pulse type of a bit (R50). -/
def PulseType.ofBit (b : BitVec 1) : PulseType := if b = 1 then .mark else .space

/-- The selector `{NEXT_TYPE, b}` of format `STEP2`, `b` the frame bit being consumed (R50). -/
def State.stepSelector (s : State) : BitVec 2 :=
  s.nextType.bit ++ BitVec.ofBool s.currentBit

/-- The 3-bit code of a phase (R17). -/
def Phase.code : Phase → BitVec 3
  | .idle => 0
  | .header => 1
  | .bits => 2
  | .trail => 3
  | .footer => 4

end Sys2Proof.Machine
end

