-- ==== Sys2Proof/Machine/PulseEncoder.lean ====
section
/-! DEFINITION. The PulseEncoder (42_pulse_encoder.md): the micro-steps, the sequencer that orders them, the
transmission, and the operation `PE.ENCODE`. A micro-step executed by itself has the effect of its pseudocode
whatever the selector says; the sequencer runs it only where the selector picks it (log entry 9). -/

namespace Sys2Proof.Machine

/-- `PE.HEADER` (R81). -/
def State.header (s : State) : State :=
  ((s.txEmit (.mark Config.headerMark)).setPulse (BitVec.ofNat 3 Config.headerSpace) .space).setSeq .bits s.rep
    (BitVec.ofNat 6 (Config.bitCount - 1))

/-- `PE.STEP.S0` (R83). -/
def State.stepS0 (s : State) : State :=
  (((s.txEmit (.space s.pending.toNat)).txEmit (.mark 1)).setPulse 1 .space).advance

/-- `PE.STEP.S1` (R82). -/
def State.stepS1 (s : State) : State :=
  ((s.txEmit (.space (s.pending.toNat + 1))).setPulse 1 .mark).advance

/-- `PE.STEP.M0`, in the corrected reading (R85; 90_conflicts.md C2). -/
def State.stepM0 (s : State) : State :=
  ((s.txEmit (.mark (s.pending.toNat + 1))).setPulse 1 .space).advance

/-- `PE.STEP.M1`, in the corrected reading (R84; 90_conflicts.md C2). -/
def State.stepM1 (s : State) : State :=
  (((s.txEmit (.mark s.pending.toNat)).txEmit (.space 1)).setPulse 1 .mark).advance

/-- `PE.TRAIL`: a space whatever `NEXT_TYPE` is, then the next repetition or the footer (R87, R93). -/
def State.trail (s : State) : State :=
  let s' := s.txEmit (.space s.pending.toNat)
  if s.rep = BitVec.ofNat 2 (Config.repeatCount - 1) then s'.setSeq .footer s.rep s.bitIdx
  else s'.setSeq .header (s.rep + 1) s.bitIdx

/-- `PE.FOOTER` (R89). -/
def State.footer (s : State) : State :=
  (s.txEmit (.mark Config.footerMark)).setSeq .idle s.rep s.bitIdx

/-- The bit step that `NEXT_TYPE` and the current frame bit select (R50, R95). -/
def State.bitStep (s : State) : State :=
  match s.nextType, s.currentBit with
  | .space, false => s.stepS0
  | .space, true => s.stepS1
  | .mark, false => s.stepM0
  | .mark, true => s.stepM1

/-- The micro-step at the sequencer position (R17, R95); none in phase IDLE. -/
def State.microStep (s : State) : State :=
  match s.phase with
  | .idle => s
  | .header => s.header
  | .bits => s.bitStep
  | .trail => s.trail
  | .footer => s.footer

/-- Run micro-steps until `PHASE` = IDLE, at most `fuel` of them. -/
def State.runToIdle : Nat → State → State
  | 0, s => s
  | fuel + 1, s => if s.phase = .idle then s else s.microStep.runToIdle fuel

/-- The micro-steps of one transmission: 3 headers, 102 bit steps, 3 trails and 1 footer, 109 in all (R95). -/
def microStepsPerTransmission : Nat := Config.repeatCount * (1 + Config.bitCount + 1) + 1

/-- The start of `transmit()`: `Begin`, `Carrier(38000)`, and the sequencer at the first header; the call of
`TxEmit(Send)` remains for when `PHASE` is IDLE again (R90). -/
def State.startTransmission (s : State) : State :=
  (((s.txEmit .beginFrame).txEmit (.carrier Config.carrierHz)).setSeq .header 0 s.bitIdx).setTxCall
    (some TxEvent.send.word)

/-- `transmit()`: the start, the micro-steps until IDLE, and `TxEmit(Send)` (R90). -/
def State.transmit (s : State) : State :=
  (s.startTransmission.runToIdle microStepsPerTransmission).serveCall TxEvent.send.word .send

/-- `PE.ENCODE`: `FRAME <- FRAME_IN[33:0]`, then `transmit()` (R90). -/
def execPeEncode (f : FrameWord) (s : State) : Host.Outcome State Fault Refusal :=
  .next (s.setFrame f).transmit

/-- The micro-step `PE.HEADER` (R81). -/
def execPeHeader (s : State) : Host.Outcome State Fault Refusal := .next s.header

/-- The micro-step `PE.STEP.S0` (R83). -/
def execPeStepS0 (s : State) : Host.Outcome State Fault Refusal := .next s.stepS0

/-- The micro-step `PE.STEP.S1` (R82). -/
def execPeStepS1 (s : State) : Host.Outcome State Fault Refusal := .next s.stepS1

/-- The micro-step `PE.STEP.M0` (R85). -/
def execPeStepM0 (s : State) : Host.Outcome State Fault Refusal := .next s.stepM0

/-- The micro-step `PE.STEP.M1` (R84). -/
def execPeStepM1 (s : State) : Host.Outcome State Fault Refusal := .next s.stepM1

/-- The micro-step `PE.TRAIL` (R87). -/
def execPeTrail (s : State) : Host.Outcome State Fault Refusal := .next s.trail

/-- The micro-step `PE.FOOTER` (R89). -/
def execPeFooter (s : State) : Host.Outcome State Fault Refusal := .next s.footer

end Sys2Proof.Machine
end

