-- ==== Sys2Proof/Machine/Control.lean ====
section
/-! DEFINITION. The control call, the operations that do nothing, and RESET (43_control.md,
70_reset_and_hazards.md). -/

namespace Sys2Proof.Machine

/-- `CONTROL`: read the tracker, build, update the tracker with the raw request, transmit (R100); refused before any
RESET (R127). -/
def execControl (m : ModeCode) (t : TempWord) (s : State) : Host.Outcome State Fault Refusal :=
  let prev := s.prevMode
  s.ifReset ((s.setFrame (build m t prev)).setPrevMode m).transmit

/-- `NOP` (R101). -/
def execNop (s : State) : Host.Outcome State Fault Refusal := .next s

/-- `OP.RESERVED`: "A model refuses them" (R102, R49; log entry 5). -/
def execOpReserved (_low : BitVec 1) (_s : State) : Host.Outcome State Fault Refusal :=
  .refused .reservedOp

/-- `RESET` with `INIT_MODE` = `m` (R125): every register at its reset value, the record of the TX stream
emptied, no event emitted. What is presented on the ports is the host's and stays. -/
def execReset (m : ModeCode) (s : State) : Host.Outcome State Fault Refusal :=
  .next
    { prevMode := m
      frame := 0
      pending := 0
      nextType := .space
      bitIdx := 0
      rep := 0
      phase := .idle
      modeOut := m
      tx := []
      txCall := none
      resetDone := true
      request := s.request }

end Sys2Proof.Machine
end

