-- ==== Sys2Proof/Machine/FrameWords.lean ====
section
/-! DEFINITION. The frame rows of the opcode table (R56). A frame word is no operation of the ports: what the
block does with a frame it is given is to latch and serialize it, `PE.ENCODE`, "whatever 34 bits `FRAME_IN` holds"
(R52, R90). DESIGN CHOICE (log entry 7). -/

namespace Sys2Proof.Machine

/-- Latch and serialize a frame of the given kind (R90, R52). -/
def serializeKind (mode : ModeCode) (power : BitVec 1) (temperature : BitVec 4) (s : State) : State :=
  (s.setFrame (kindFrame mode power temperature)).transmit

/-- `FRAME.COOL`, the frame that `build` returns for a Cool request (R67). -/
def execFrameCool (power : BitVec 1) (temperature : BitVec 4) (s : State) : Host.Outcome State Fault Refusal :=
  .next (serializeKind Mode.cool power temperature s)

/-- `FRAME.HEAT`, the frame that `build` returns for a Heat request (R68). -/
def execFrameHeat (power : BitVec 1) (temperature : BitVec 4) (s : State) : Host.Outcome State Fault Refusal :=
  .next (serializeKind Mode.heat power temperature s)

/-- `FRAME.AUTO`, the frame that `build` returns for an Auto request (R69). -/
def execFrameAuto (power : BitVec 1) (temperature : BitVec 4) (s : State) : Host.Outcome State Fault Refusal :=
  .next (serializeKind Mode.auto power temperature s)

/-- `FRAME.OFF`, the frame that `build` returns for an Off or unrecognized request, power fixed 0 (R70). -/
def execFrameOff (temperature : BitVec 4) (s : State) : Host.Outcome State Fault Refusal :=
  .next (serializeKind Mode.off 0 temperature s)

/-- `FRAME.DRY`: never built, serialized as given (R52; 93_implementation_defined.md U10). -/
def execFrameDry (power : BitVec 1) (temperature : BitVec 4) (s : State) : Host.Outcome State Fault Refusal :=
  .next (serializeKind Mode.dry power temperature s)

/-- `FRAME.FAN`: never built, serialized as given (R52; 93_implementation_defined.md U10). -/
def execFrameFan (power : BitVec 1) (temperature : BitVec 4) (s : State) : Host.Outcome State Fault Refusal :=
  .next (serializeKind Mode.fan power temperature s)

end Sys2Proof.Machine
end

