-- ==== Sys2Proof/Machine/Tracker.lean ====
section
/-! DEFINITION. The ToggleStateTracker operations (40_tracker.md). -/

namespace Sys2Proof.Machine

/-- `TRK.READ`: `MODE_OUT <- PREV_MODE` (R60); refused before any RESET (R127). -/
def execTrkRead (s : State) : Host.Outcome State Fault Refusal :=
  s.ifReset (s.setModeOut s.prevMode)

/-- `TRK.UPDATE`: `PREV_MODE <- MODE_IN`, exactly as given (R61, R62). -/
def execTrkUpdate (m : ModeCode) (s : State) : Host.Outcome State Fault Refusal :=
  .next (s.setPrevMode m)

end Sys2Proof.Machine
end

