-- ==== Sys2Proof/Machine/TxWords.lean ====
section
/-! DEFINITION. The event rows of the opcode table (R51). An event is no operation of the ports and nothing a host can
present: a row is the call of `TxEmit` with its word, made by the PE.ENCODE or CONTROL in progress (R8, R18, R90).
DESIGN CHOICE (log entry 8). -/

namespace Sys2Proof.Machine

/-- `TX.BEGIN`: the call `TxEmit(Begin)` (R51). -/
def execTxBegin (arg : BitVec 16) (s : State) : Host.Outcome State Fault Refusal :=
  .next (s.serveCall (txWord 0b000 arg) .beginFrame)

/-- `TX.CARRIER`: the call `TxEmit(Carrier(hz))` (R51). -/
def execTxCarrier (hz : BitVec 16) (s : State) : Host.Outcome State Fault Refusal :=
  .next (s.serveCall (txWord 0b001 hz) (.carrier hz.toNat))

/-- `TX.SPACE`: the call `TxEmit(Space(n))` (R51). -/
def execTxSpace (n : BitVec 16) (s : State) : Host.Outcome State Fault Refusal :=
  .next (s.serveCall (txWord 0b010 n) (.space n.toNat))

/-- `TX.MARK`: the call `TxEmit(Mark(n))` (R51). -/
def execTxMark (n : BitVec 16) (s : State) : Host.Outcome State Fault Refusal :=
  .next (s.serveCall (txWord 0b011 n) (.mark n.toNat))

/-- `TX.SEND`: the call `TxEmit(Send)`, with which `transmit()` ends (R51, R90). -/
def execTxSend (arg : BitVec 16) (s : State) : Host.Outcome State Fault Refusal :=
  .next (s.serveCall (txWord 0b100 arg) .send)

end Sys2Proof.Machine
end

