-- ==== Sys2Proof/Machine/Dispatch.lean ====
section
/-! DEFINITION. The meaning of every instruction, one arm per row of the opcode table. -/

namespace Sys2Proof.Machine

/-- One instruction executed on a state. -/
def exec (i : Instr) (s : State) : Host.Outcome State Fault Refusal :=
  match i with
  | .nop => Sys2Proof.Machine.execNop s
  | .control m t => Sys2Proof.Machine.execControl m t s
  | .feBuild m t prev => Sys2Proof.Machine.execFeBuild m t prev s
  | .peEncode f => Sys2Proof.Machine.execPeEncode f s
  | .trkRead => Sys2Proof.Machine.execTrkRead s
  | .trkUpdate m => Sys2Proof.Machine.execTrkUpdate m s
  | .opReserved low => Sys2Proof.Machine.execOpReserved low s
  | .reset m => Sys2Proof.Machine.execReset m s
  | .peStepS0 => Sys2Proof.Machine.execPeStepS0 s
  | .peStepS1 => Sys2Proof.Machine.execPeStepS1 s
  | .peStepM0 => Sys2Proof.Machine.execPeStepM0 s
  | .peStepM1 => Sys2Proof.Machine.execPeStepM1 s
  | .peHeader => Sys2Proof.Machine.execPeHeader s
  | .peTrail => Sys2Proof.Machine.execPeTrail s
  | .peFooter => Sys2Proof.Machine.execPeFooter s
  | .frameCool power t => Sys2Proof.Machine.execFrameCool power t s
  | .frameHeat power t => Sys2Proof.Machine.execFrameHeat power t s
  | .frameAuto power t => Sys2Proof.Machine.execFrameAuto power t s
  | .frameOff t => Sys2Proof.Machine.execFrameOff t s
  | .frameDry power t => Sys2Proof.Machine.execFrameDry power t s
  | .frameFan power t => Sys2Proof.Machine.execFrameFan power t s
  | .txBegin arg => Sys2Proof.Machine.execTxBegin arg s
  | .txCarrier hz => Sys2Proof.Machine.execTxCarrier hz s
  | .txSpace n => Sys2Proof.Machine.execTxSpace n s
  | .txMark n => Sys2Proof.Machine.execTxMark n s
  | .txSend arg => Sys2Proof.Machine.execTxSend arg s

end Sys2Proof.Machine
end

