-- ==== Sys2Proof/Machine/Fetch.lean ====
section
/-! DEFINITION. Where a step finds its instruction: the sequencer position inside a transmission, what is
presented to the block otherwise; and the placing of an opcode-table word there. -/

namespace Sys2Proof.Machine

/-- The word of a request. -/
def Request.encoding : Request → Encoding
  | .ports p => .ports p
  | .frameWord f => .f34 f

/-- The word the next step runs. In phase IDLE that is the `TxEmit` call of the operation in progress, the `Send` that
ends `transmit()` (R90), and where no operation is in progress what is presented (R17). In phase BITS the selector of
R50 picks the bit step; in the other phases `PHASE` itself picks the micro-step. Nothing presented can enter a
transmission (R34, R126). -/
def State.fetch (s : State) : Encoding :=
  match s.phase with
  | .idle =>
    match s.txCall with
    | some w => .txw w
    | none => s.request.encoding
  | .bits => .step2 s.stepSelector
  | .header => .seq s.phase.code
  | .trail => .seq s.phase.code
  | .footer => .seq s.phase.code

/-- `f` with its most significant bit replaced. -/
def withTopBit (f : FrameWord) (b : BitVec 1) : FrameWord := b ++ f.extractLsb' 0 33

/-- The state with a word placed where the next step finds it: what is presented between operations, the sequencer
position that selects the micro-step, or, for an event word, the `TxEmit` call of an operation in progress. A `SEQ` word
that names no micro-step leaves the state alone. -/
def State.place (s : State) : Encoding → State
  | .ports p => { s with phase := .idle, txCall := none, request := .ports p }
  | .f34 f => { s with phase := .idle, txCall := none, request := .frameWord f }
  | .txw w => { s with phase := .idle, txCall := some w }
  | .step2 sel =>
    { s with
      phase := .bits
      nextType := PulseType.ofBit (sel.extractLsb' 1 1)
      bitIdx := 33
      frame := withTopBit s.frame (sel.extractLsb' 0 1) }
  | .seq ph =>
    if ph = 1 then { s with phase := .header }
    else if ph = 3 then { s with phase := .trail }
    else if ph = 4 then { s with phase := .footer }
    else s

/-- The host presents a transaction on the ports (R19). -/
def State.present (s : State) (p : Ports) : State := { s with request := .ports p }

end Sys2Proof.Machine
end

