-- ==== Sys2Proof/Machine/Step.lean ====
section
/-! DEFINITION. One step of the block: fetch, decode, execute; and the placing of an opcode-table word. -/

namespace Sys2Proof.Machine

/-- One step: fetch, decode, execute. Between operations it serves what is presented: one whole operation, atomically
(R34). Inside a transmission, which no operation leaves unfinished, it runs the micro-step at the sequencer position
(R95), and the `Send` after the last (R90; log entry 9). -/
def step (s : State) : Host.Outcome State Fault Refusal :=
  match decode s.fetch with
  | .error why => .refused (.undecodable why)
  | .ok i => exec i s

/-- The state with an opcode-table word placed where `step` finds its next instruction (log entry 6). A number
that is no word of any format leaves the state alone. -/
def State.withFetchWord (s : State) (nbits w : Nat) : State :=
  match tableEncoding nbits w with
  | some e => s.place e
  | none => s

end Sys2Proof.Machine
end

