-- ==== Sys2Proof/Machine/Program.lean ====
section
/-! DEFINITION. Runs of the block (R136), and the host's programs as lines of the operations of R54 with the
pseudo-operations of R55. Lines are abstract syntax: the text of a line is notation only. -/

namespace Sys2Proof.Machine

/-- Present each transaction in turn and step once for each (R136). -/
def runOps : List Ports → State → Host.Outcome State Fault Refusal
  | [], s => .next s
  | p :: rest, s =>
    match step (s.present p) with
    | .next s' => runOps rest s'
    | .fault r => .fault r
    | .refused r => .refused r

/-- `<mode>`: one of the six names or a literal `#0b...` (R54). -/
inductive ModeOperand where
  | cool
  | heat
  | auto
  | dry
  | fan
  | off
  | literal (code : ModeCode)
  deriving DecidableEq, Repr

/-- The mode code of a `<mode>` (R46, R54). -/
def ModeOperand.code : ModeOperand → ModeCode
  | .cool => Mode.cool
  | .heat => Mode.heat
  | .auto => Mode.auto
  | .dry => Mode.dry
  | .fan => Mode.fan
  | .off => Mode.off
  | .literal c => c

/-- `<temp>`: a number of degrees Celsius as a whole number of 1/256 degrees, or a raw literal `#0x...` (R54). -/
inductive TempOperand where
  | celsius256 (units : Int)
  | literal (word : TempWord)
  deriving DecidableEq, Repr

/-- A decimal `<temp>` is in -128 to 127.99609375 (R54). -/
def TempOperand.wf : TempOperand → Bool
  | .celsius256 n => decide (-0x8000 ≤ n ∧ n ≤ 0x7FFF)
  | .literal _ => true

/-- The value of `TEMP_IN` for a `<temp>` (R47, R54). -/
def TempOperand.word : TempOperand → TempWord
  | .celsius256 n => BitVec.ofInt 16 n
  | .literal w => w

/-- `<prev>`: a `<mode>`, or the value now on the port `MODE_OUT` (R54). -/
inductive PrevOperand where
  | mode (m : ModeOperand)
  | modeOut
  deriving DecidableEq, Repr

/-- `<frame>`: a literal, or the value now on the port `FRAME_OUT` (R54). -/
inductive FrameOperand where
  | literal (f : FrameWord)
  | frameOut
  deriving DecidableEq, Repr

/-- A line of a program: one operation (R54). -/
inductive Line where
  | reset (m : ModeOperand)
  | nop
  | control (m : ModeOperand) (t : TempOperand)
  | feBuild (m : ModeOperand) (t : TempOperand) (prev : PrevOperand)
  | peEncode (f : FrameOperand)
  | trkRead
  | trkUpdate (m : ModeOperand)
  deriving DecidableEq, Repr

/-- The mode code that a `<prev>` stands for, in the state in which its line is issued. -/
def PrevOperand.code (s : State) : PrevOperand → ModeCode
  | .mode m => m.code
  | .modeOut => s.modeOut

/-- The frame that a `<frame>` stands for, in the state in which its line is issued. -/
def FrameOperand.word (s : State) : FrameOperand → FrameWord
  | .literal f => f
  | .frameOut => s.frameOut

/-- The port values that a line presents (R54). -/
def Line.ports (s : State) : Line → Ports
  | .reset m => { Ports.zero with rst := 1, initMode := m.code }
  | .nop => { Ports.zero with op := 0b000 }
  | .control m t => { Ports.zero with op := 0b001, modeIn := m.code, tempIn := t.word }
  | .feBuild m t prev =>
    { Ports.zero with op := 0b010, modeIn := m.code, tempIn := t.word, prevIn := prev.code s }
  | .peEncode f => { Ports.zero with op := 0b011, frameIn := f.word s }
  | .trkRead => { Ports.zero with op := 0b100 }
  | .trkUpdate m => { Ports.zero with op := 0b101, modeIn := m.code }

/-- `CONTROL.X <mode>, <temp>`: the control flow of the source written as four operations (R55). -/
def controlX (m : ModeOperand) (t : TempOperand) : List Line :=
  [.trkRead, .feBuild m t .modeOut, .trkUpdate m, .peEncode .frameOut]

/-- `OFF <temp>`: turn the unit off (R55). -/
def offLine (t : TempOperand) : List Line := [.control .off t]

/-- Issue each line in turn: its port values are presented and served (R54, R136). -/
def runLines : List Line → State → Host.Outcome State Fault Refusal
  | [], s => .next s
  | l :: rest, s =>
    match step (s.present (l.ports s)) with
    | .next s' => runLines rest s'
    | .fault r => .fault r
    | .refused r => .refused r

end Sys2Proof.Machine
end

