-- ==== Sys2Proof/Machine/Waveform.lean ====
section
/-! DEFINITION. The pulse encoder as the pure functions of the frame that the rules give beside the micro-steps
(R86, R88, R90, 42_pulse_encoder.md). `step` does not use them: claims compare the machine with them. -/

namespace Sys2Proof.Machine

/-- `step(p, nt, b)`, the case table of the bit step: the events, and `p` and `nt` after (R86). -/
def pulseStep (p : Nat) (nt : PulseType) (b : Bool) : List TxEvent × Nat × PulseType :=
  match nt, b with
  | .space, true => ([.space (p + 1)], 1, .mark)
  | .space, false => ([.space p, .mark 1], 1, .space)
  | .mark, true => ([.mark p, .space 1], 1, .mark)
  | .mark, false => ([.mark (p + 1)], 1, .space)

/-- The bit run over a list of bits, first bit first (R86). -/
def bitRun : List Bool → Nat → PulseType → List TxEvent × Nat × PulseType
  | [], p, nt => ([], p, nt)
  | b :: rest, p, nt =>
    let (e, p', nt') := pulseStep p nt b
    let (out, p'', nt'') := bitRun rest p' nt'
    (e ++ out, p'', nt'')

/-- The bits of `f` from bit `n - 1` down to bit 0. -/
def bitsBelow (f : FrameWord) : Nat → List Bool
  | 0 => []
  | n + 1 => f.getLsbD n :: bitsBelow f n

/-- The 34 bits of a frame, bit 33 first (R31). -/
def frameBits (f : FrameWord) : List Bool := bitsBelow f Config.bitCount

/-- `bits(f, p0, nt0)` (R86). -/
def bits (f : FrameWord) (p : Nat) (nt : PulseType) : List TxEvent × Nat × PulseType :=
  bitRun (frameBits f) p nt

/-- `rep(f)`: one repetition (R88). -/
def repetition (f : FrameWord) : List TxEvent :=
  let (out, p, _) := bits f Config.headerSpace .space
  [.mark Config.headerMark] ++ out ++ [.space p]

/-- `pulses(f)`: three repetitions and the footer (R90). -/
def pulses (f : FrameWord) : List TxEvent :=
  repetition f ++ repetition f ++ repetition f ++ [.mark Config.footerMark]

/-- `events(f)`: what one transmission appends to the TX stream (R90). -/
def events (f : FrameWord) : List TxEvent :=
  [.beginFrame, .carrier Config.carrierHz] ++ pulses f ++ [.send]

end Sys2Proof.Machine
end

