-- ==== Sys2Proof/Safety.lean ====
section
/-! DEFINITION. The terms the claims use: properties of pulse lists (R91 to R94), runs of operations (R136), and
the invariants of the sequencer and of the TX stream. -/

namespace Sys2Proof.Machine

/-! Pulses. -/

/-- The type of an event that is a pulse (R9: the Mark and Space events). -/
def TxEvent.pulseType : TxEvent → Option PulseType
  | .space _ => some .space
  | .mark _ => some .mark
  | _ => none

/-- The duration of an event in units; 0 for an event that is no pulse (R51). -/
def TxEvent.units : TxEvent → Nat
  | .space n => n
  | .mark n => n
  | _ => 0

/-- The duration of a list of events in units. -/
def totalUnits (l : List TxEvent) : Nat := (l.map TxEvent.units).sum

/-- The physical length of a list of events in seconds, `n × TIME_UNIT` a pulse of `n` units, `TIME_UNIT` being an
argument (R6, R8, R51; log entry 12). -/
def physicalLength (timeUnit : Config.TimeUnit) (l : List TxEvent) : ℝ := (totalUnits l : ℝ) * timeUnit.seconds

/-- Every event of the list is a pulse. -/
def allPulses (l : List TxEvent) : Prop := ∀ e ∈ l, e.pulseType.isSome = true

/-- No two neighbouring pulses have the same type (R94 (a)). -/
def alternates (l : List TxEvent) : Prop := l.IsChain fun a b => a.pulseType ≠ b.pulseType

/-- The level of one frame bit for two units: a 1 is space then mark, a 0 is mark then space (R92). -/
def bitLevels (b : Bool) : List PulseType := if b then [.space, .mark] else [.mark, .space]

/-- The level sequence of one repetition: three units of mark, three of space, two units a bit (R92). -/
def levels (f : FrameWord) : List PulseType :=
  List.replicate 3 .mark ++ List.replicate 3 .space ++ (frameBits f).flatMap bitLevels

/-- A pulse of the given type and length. -/
def pulseOf (t : PulseType) (n : Nat) : TxEvent :=
  match t with
  | .space => .space n
  | .mark => .mark n

/-- The run-length encoding of a level sequence, with a run of `t` of length `n` already open. -/
def runLengthFrom : PulseType → Nat → List PulseType → List TxEvent
  | t, n, [] => [pulseOf t n]
  | t, n, u :: rest => if u = t then runLengthFrom t (n + 1) rest else pulseOf t n :: runLengthFrom u 1 rest

/-- The run-length encoding of a level sequence (R92). -/
def runLength : List PulseType → List TxEvent
  | [] => []
  | t :: rest => runLengthFrom t 1 rest

/-- `E` of R94 (c): the number of `j` in 0 to 32 with `f[j] = f[j+1]`. -/
def equalNeighbours (f : FrameWord) : Nat :=
  ((List.range 33).filter fun j => f.getLsbD j == f.getLsbD (j + 1)).length

/-- `z` of R94 (c). -/
def topBitClear (f : FrameWord) : Nat := if f.getLsbD 33 then 0 else 1

/-- A frame that `build` returns for some operands (R74 (f)). -/
def Buildable (f : FrameWord) : Prop := ∃ m t prev, f = build m t prev

/-- The eleven event words that the block ever emits (R91 (c), 95_test_vectors.md section 2.4). -/
def emittedWords : List TxWord :=
  [0x00000, 0x19470, 0x20001, 0x20002, 0x20003, 0x20004, 0x30001, 0x30002, 0x30003, 0x30004, 0x40000]

/-! Frames on the state. -/

/-- The state after one transmission of the latched frame: the events appended, and the working registers at the
values of R24. -/
def State.transmitted (s : State) : State :=
  { s with
    tx := s.tx ++ events s.frame
    pending := 1
    nextType := if s.frame.getLsbD 0 then .mark else .space
    bitIdx := 0
    rep := 2
    phase := .idle
    txCall := none }

/-- No operation is in progress (R17, R18): the next step takes what is presented. -/
def betweenOperations (s : State) : Prop := s.phase = .idle ∧ s.txCall = none

/-- The call of `TxEmit(Send)` that ends `transmit()` (R90). -/
def sendCall : Option TxWord := some TxEvent.send.word

/-- Two states agree on everything a later operation can use or a port can show: all but the working registers
`PENDING`, `NEXT_TYPE`, `BITIDX` and `REP`, between operations (R24). -/
def sameVisible (s s' : State) : Prop :=
  s.prevMode = s'.prevMode ∧ s.frame = s'.frame ∧ s.modeOut = s'.modeOut ∧ s.tx = s'.tx ∧
    s.request = s'.request ∧ s.resetDone = s'.resetDone ∧ betweenOperations s ∧ betweenOperations s'

/-! Operations and runs. -/

/-- The ports ask for one of the six operations or for RESET, not for a reserved code (R48, R126). -/
def servable (p : Ports) : Prop := p.rst = 1 ∨ (p.op ≠ 0b110 ∧ p.op ≠ 0b111)

/-! Invariants. -/

/-- What the sequencer's registers can hold at each phase (R13, R15, R16, R17, R91 (a)). In phase BITS the header's
3 units are pending before the first bit, and one unit of the last bit's second half after it. While a transmission
runs its `Send` remains to be called (R90). -/
def seqInvariant (s : State) : Prop :=
  match s.phase with
  | .idle => (s.txCall = none ∨ s.txCall = sendCall) ∧ (s.pending = 0 ∨ s.pending = 1) ∧ s.bitIdx = 0 ∧
      s.rep.toNat ≤ 2
  | .header => s.txCall = sendCall ∧ s.rep.toNat ≤ 2
  | .bits =>
    s.txCall = sendCall ∧ s.rep.toNat ≤ 2 ∧
      ((s.bitIdx = 33 ∧ s.pending = 3 ∧ s.nextType = .space) ∨
        (s.bitIdx.toNat < 33 ∧ s.pending = 1 ∧
          s.nextType = if s.frame.getLsbD (s.bitIdx.toNat + 1) then .mark else .space))
  | .trail =>
    s.txCall = sendCall ∧ s.rep.toNat ≤ 2 ∧ s.bitIdx = 0 ∧ s.pending = 1 ∧ s.nextType = if s.frame.getLsbD 0 then .mark else .space
  | .footer => s.txCall = sendCall ∧ s.rep = 2 ∧ s.bitIdx = 0 ∧ s.pending = 1

/-- No operation is in progress, and the TX stream is a list of whole transmissions (R34, R104). -/
def streamInvariant (s : State) : Prop :=
  betweenOperations s ∧ ∃ fs : List FrameWord, s.tx = fs.flatMap events

end Sys2Proof.Machine
end

