-- ==== Sys2Proof/Certificates/Slice0/Obligations.lean ====
section
/-! DEFINITION. The statements for the provers. Each says which rule of spec/ it formalises; a statement that rests
on a choice of the model names the log entry. -/

open Sys2Proof Sys2Proof.Machine

/-! The tracker (40_tracker.md). -/

/-- R60: `OP = 0b100` is TRK.READ whatever the operand ports hold; once a RESET has been performed (R127) it sets `MODE_OUT` to `PREV_MODE` and changes
nothing else; `MODE_OUT` holds until the next TRK.READ or RESET; right after RESET a read shows the initial mode;
two reads with no TRK.UPDATE, CONTROL or RESET between them show the same. -/
def Obligations.TrkReadShowsPrevMode : Prop :=
  (∀ p : Ports, p.rst = 0 → p.op = 0b100 → decode (.ports p) = .ok .trkRead) ∧
  (∀ s : State, s.resetDone = true → exec .trkRead s = .next { s with modeOut := s.prevMode }) ∧
  (∀ (s : State) m, ∃ t, exec (.reset m) s = .next t ∧ exec .trkRead t = .next { t with modeOut := m }) ∧
  (∀ (ps : List Ports) (s : State), betweenOperations s → s.resetDone = true →
    (∀ q ∈ ps, q.rst = 0 ∧ servable q ∧ q.op ≠ 0b100) →
    ∃ t u, exec .trkRead s = .next t ∧ runOps ps t = .next u ∧ u.modeOut = t.modeOut) ∧
  (∀ (ps : List Ports) (s : State), betweenOperations s → s.resetDone = true →
    (∀ q ∈ ps, q.rst = 0 ∧ servable q ∧ q.op ≠ 0b101 ∧ q.op ≠ 0b001) →
    ∃ t u, exec .trkRead s = .next t ∧ runOps ps t = .next u ∧ exec .trkRead u = .next { u with modeOut := t.modeOut })

/-- R61: `OP = 0b101` is TRK.UPDATE of `MODE_IN`, the other operand ports being ignored; it stores all 3 bits as
given and changes nothing else; writing the value already held changes nothing; a read after it, where a RESET has been
performed (R127), shows it. -/
def Obligations.TrkUpdateStoresRawMode : Prop :=
  (∀ p : Ports, p.rst = 0 → p.op = 0b101 → decode (.ports p) = .ok (.trkUpdate p.modeIn)) ∧
  (∀ (s : State) m, exec (.trkUpdate m) s = .next { s with prevMode := m }) ∧
  (∀ s : State, exec (.trkUpdate s.prevMode) s = .next s) ∧
  (∀ s : State, s.resetDone = true → ∃ t, exec (.trkUpdate Mode.cool) s = .next t ∧ exec .trkRead t = .next { t with modeOut := 0b001 })

/-- R62: `PREV_MODE` after `TRK.UPDATE m` or `CONTROL m, t` (once a RESET has been performed, R127) is `m` itself for all eight codes; after an
unrecognized `m` the frame is an Off frame and the next request, whatever it is, builds `power = 0`. -/
def Obligations.TrackerValidatesNothing : Prop :=
  (∀ (s : State) m, ∃ t, exec (.trkUpdate m) s = .next t ∧ t.prevMode = m) ∧
  (∀ (s : State) m temp, s.resetDone = true → ∃ t, exec (.control m temp) s = .next t ∧ t.prevMode = m ∧
    (recognized m = false →
      (unpackFrame t.frame).mode = 0b111 ∧ (unpackFrame t.frame).power = 0 ∧
      ∀ m' temp', ∃ u, exec (.control m' temp') t = .next u ∧ (unpackFrame u.frame).power = 0))

/-! The frame encoder (41_frame_encoder.md, 30_encoding.md). -/

/-- R65: `OP = 0b010` is FE.BUILD of its three operand ports; it writes `FRAME` with the frame whose fields are
`base()` with mode, power and temperature written, reads no register and changes nothing else. -/
def Obligations.FeBuildWritesBuiltFrame : Prop :=
  (∀ p : Ports, p.rst = 0 → p.op = 0b010 → decode (.ports p) = .ok (.feBuild p.modeIn p.tempIn p.prevIn)) ∧
  (∀ (s : State) m temp prev, exec (.feBuild m temp prev) s = .next { s with frame := build m temp prev }) ∧
  (∀ m temp prev, ∃ mode power, modeAndPower m prev = (mode, power) ∧
    unpackFrame (build m temp prev) =
      { power := power, mode := mode, fan := 0b11, zeros4 := 0, swing := 0, ifeel := 0, zeros3 := 0,
        temperature := tempField temp, sleep := 0, zeros2 := 0, one := 1, zero := 0 }) ∧
  build Mode.cool 0x1800 Mode.off = 0x270480002

/-- R66: `base()` is `0x030000002`, and no operand influences bits 29 to 23, 18 to 2, 1 and 0 of a built frame. -/
def Obligations.BaseFrameIsConstant : Prop :=
  packFrame baseFields = 0x030000002 ∧
  ∀ m temp prev, build m temp prev &&& 0x03F87FFFF = packFrame baseFields

/-- R67: a Cool request builds mode `0b001`, and `power = 1` exactly when the previous mode is `0b111`. -/
def Obligations.CoolRequestBuildsCool : Prop :=
  (∀ temp prev, (unpackFrame (build 0b001 temp prev)).mode = 0b001 ∧
    ((unpackFrame (build 0b001 temp prev)).power = 1 ↔ prev = 0b111)) ∧
  build Mode.cool 0x1800 Mode.off = 0x270480002 ∧ build Mode.cool 0x1800 Mode.cool = 0x070480002

/-- R68: a Heat request builds mode `0b010`, and `power = 1` exactly when the previous mode is `0b111`. -/
def Obligations.HeatRequestBuildsHeat : Prop :=
  (∀ temp prev, (unpackFrame (build 0b010 temp prev)).mode = 0b010 ∧
    ((unpackFrame (build 0b010 temp prev)).power = 1 ↔ prev = 0b111)) ∧
  build Mode.heat 0x1600 Mode.off = 0x2B0380002 ∧ build Mode.heat 0x0500 Mode.cool = 0x0B0080002

/-- R69: an Auto request builds mode `0b011`, and `power = 1` exactly when the previous mode is `0b111`. -/
def Obligations.AutoRequestBuildsAuto : Prop :=
  (∀ temp prev, (unpackFrame (build 0b011 temp prev)).mode = 0b011 ∧
    ((unpackFrame (build 0b011 temp prev)).power = 1 ↔ prev = 0b111)) ∧
  build Mode.auto 0x2800 Mode.heat = 0x0F0780002 ∧ build Mode.auto 0x1080 Mode.auto = 0x0F0100002

/-- R70: a request that is not Cool, Heat or Auto builds mode `0b111`, `power = 0` whatever the previous mode is,
and still the temperature field. -/
def Obligations.OtherRequestsBuildOff : Prop :=
  (∀ m temp prev, m ≠ 0b001 → m ≠ 0b010 → m ≠ 0b011 →
    (unpackFrame (build m temp prev)).mode = 0b111 ∧ (unpackFrame (build m temp prev)).power = 0 ∧
    (unpackFrame (build m temp prev)).temperature = tempField temp) ∧
  build Mode.off 0x1800 Mode.cool = 0x1F0480002 ∧ build 0b000 0x1400 Mode.off = 0x1F0280002 ∧
  build Mode.dry 0x1900 Mode.cool = 0x1F0500002

/-- R71: the temperature field of the port value is the clamped, half-up rounded number of degrees minus 15, it is
1 to 15, it depends on neither the mode nor the previous mode, rounding and then clamping gives the same for every
rational temperature, and the corner cases of the rule. -/
def Obligations.TempFieldClampsRoundsSubtracts : Prop :=
  (∀ temp : TempWord, ((tempField temp).toNat : ℤ) = tempFieldCelsius (tempCelsius temp) ∧
    1 ≤ (tempField temp).toNat ∧ (tempField temp).toNat ≤ 15) ∧
  (∀ m temp prev, (unpackFrame (build m temp prev)).temperature = tempField temp) ∧
  (∀ t : ℚ, tempFieldCelsius t = clamp (roundHalfUp t) 16 30 - 15) ∧
  (∀ t : ℚ, t < 16 → tempFieldCelsius t = 1) ∧ (∀ t : ℚ, 30 ≤ t → tempFieldCelsius t = 15) ∧
  (∀ n : ℤ, 16 ≤ n → n < 30 → tempFieldCelsius (n + 1 / 2) = n + 1 - 15) ∧
  tempField 0x8000 = 1 ∧ tempField 0x7FFF = 15 ∧ tempField 0x1D80 = 15 ∧ tempField 0x1D7F = 14 ∧
  tempField 0x0FFF = 1 ∧ tempField 0x107F = 1 ∧ tempField 0x1080 = 2 ∧ tempField 0x1800 = 9

/-- R73: `power = 1` if and only if the requested mode is Cool, Heat or Auto and the previous mode is Off. -/
def Obligations.PowerToggleOnlyFromOff : Prop :=
  ∀ m temp prev, (unpackFrame (build m temp prev)).power = 1 ↔
    (m = Mode.cool ∨ m = Mode.heat ∨ m = Mode.auto) ∧ prev = Mode.off

/-- R45: every built frame has the constant fields. -/
def Obligations.BuiltFramesHaveConstantFields : Prop :=
  ∀ m temp prev,
    (unpackFrame (build m temp prev)).fan = 0b11 ∧ (unpackFrame (build m temp prev)).zeros4 = 0 ∧
    (unpackFrame (build m temp prev)).swing = 0 ∧ (unpackFrame (build m temp prev)).ifeel = 0 ∧
    (unpackFrame (build m temp prev)).zeros3 = 0 ∧ (unpackFrame (build m temp prev)).sleep = 0 ∧
    (unpackFrame (build m temp prev)).zeros2 = 0 ∧ (unpackFrame (build m temp prev)).one = 1 ∧
    (unpackFrame (build m temp prev)).zero = 0

/-- The last sentence of R41: a built frame is the number power×2^33 + mode×2^30 + fan×2^28 + temperature×2^19 + 2. -/
def Obligations.BuiltFrameValue : Prop :=
  ∀ m temp prev, (build m temp prev).toNat =
    (modeAndPower m prev).2.toNat * 2 ^ 33 + (modeAndPower m prev).1.toNat * 2 ^ 30 + 3 * 2 ^ 28 +
      (tempField temp).toNat * 2 ^ 19 + 2

/-- R74 (e): `build` depends on the previous mode only through whether it is Off, on the request only through its
arm, and on the temperature only through its field. -/
def Obligations.BuildSeesOnlyItsClasses : Prop :=
  ∀ m m' temp temp' prev prev',
    (prev = Mode.off ↔ prev' = Mode.off) → (m = m' ∨ (m ∉ [Mode.cool, Mode.heat, Mode.auto] ∧
      m' ∉ [Mode.cool, Mode.heat, Mode.auto])) → tempField temp = tempField temp' →
    build m temp prev = build m' temp' prev'

/-- R74 (f) and the last sentence of R56: `build` returns exactly 105 frames, which are seven frames plus a
temperature field of 1 to 15. -/
def Obligations.ExactlyTheBuildableFrames : Prop :=
  (∀ f, Buildable f ↔ ∃ b ∈ ([0x070000002, 0x270000002, 0x0B0000002, 0x2B0000002, 0x0F0000002, 0x2F0000002,
      0x1F0000002] : List FrameWord), ∃ k, 1 ≤ k ∧ k ≤ 15 ∧ f = b + BitVec.ofNat 34 (k * 2 ^ 19)) ∧
  {f : FrameWord | Buildable f}.ncard = 105

/-- R56, the columns `match` and `mask`: 34 bits decode to a frame kind exactly when they match its row. -/
def Obligations.FrameKindsAreMaskMatches : Prop :=
  ∀ f : FrameWord,
    ((∃ p t, decode (.f34 f) = .ok (.frameCool p t)) ↔ f &&& 0x1FF87FFFF = 0x070000002) ∧
    ((∃ p t, decode (.f34 f) = .ok (.frameHeat p t)) ↔ f &&& 0x1FF87FFFF = 0x0B0000002) ∧
    ((∃ p t, decode (.f34 f) = .ok (.frameAuto p t)) ↔ f &&& 0x1FF87FFFF = 0x0F0000002) ∧
    ((∃ t, decode (.f34 f) = .ok (.frameOff t)) ↔ f &&& 0x3FF87FFFF = 0x1F0000002) ∧
    ((∃ p t, decode (.f34 f) = .ok (.frameDry p t)) ↔ f &&& 0x1FF87FFFF = 0x130000002) ∧
    ((∃ p t, decode (.f34 f) = .ok (.frameFan p t)) ↔ f &&& 0x1FF87FFFF = 0x170000002)

/-- R56, the column `emitted by`: a built frame decodes to the kind of its arm, with its power and temperature. -/
def Obligations.BuiltFrameDecodesToItsKind : Prop :=
  ∀ m temp prev, decode (.f34 (build m temp prev)) =
    if m = Mode.cool then .ok (.frameCool (if prev = Mode.off then 1 else 0) (tempField temp))
    else if m = Mode.heat then .ok (.frameHeat (if prev = Mode.off then 1 else 0) (tempField temp))
    else if m = Mode.auto then .ok (.frameAuto (if prev = Mode.off then 1 else 0) (tempField temp))
    else .ok (.frameOff (tempField temp))

/-- R32: a frame survives a wider container, and only the low 34 bits of a container are read. -/
def Obligations.FrameInWiderContainer : Prop :=
  (∀ n (f : FrameWord), 34 ≤ n → frameFromWide (frameToWide n f) = f ∧
    ∀ i, 34 ≤ i → (frameToWide n f).getLsbD i = false) ∧
  (∀ n (w w' : BitVec n), (∀ i < 34, w.getLsbD i = w'.getLsbD i) → frameFromWide w = frameFromWide w')

/-! The pulse encoder (42_pulse_encoder.md). -/

/-- R81: in phase HEADER the step runs PE.HEADER, which emits `Mark(3)` and sets `PENDING = 3`,
`NEXT_TYPE = Space`, `BITIDX = 33`, `PHASE = BITS`, without reading `PENDING` or `NEXT_TYPE`; so a
repetition opens with a 3-unit mark and a space of 3 units (first bit 0) or 4 (first bit 1). -/
def Obligations.HeaderOpensRepetition : Prop :=
  (∀ s : State, s.phase = .header → step s = exec .peHeader s) ∧
  (∀ s : State, exec .peHeader s = .next
    { s with tx := s.tx ++ [.mark 3], pending := 3, nextType := .space, bitIdx := 33, phase := .bits }) ∧
  (∀ f : FrameWord, ∃ l, repetition f = .mark 3 :: .space (if f.getLsbD 33 then 4 else 3) :: l)

/-- R82: PE.STEP.S1, run in phase BITS, `NEXT_TYPE` Space and bit 1: one space a unit longer, one unit of mark
pending, `advance()`; where the sequencer runs it, 3 units are pending at the first bit and 1 after it. -/
def Obligations.StepS1ExtendsTheSpace : Prop :=
  (∀ s : State, s.phase = .bits → s.nextType = .space → s.currentBit = true → step s = exec .peStepS1 s) ∧
  (∀ s : State, exec .peStepS1 s = .next
    { s with
      tx := s.tx ++ [.space (s.pending.toNat + 1)]
      pending := 1
      nextType := .mark
      phase := if s.bitIdx = 0 then .trail else s.phase
      bitIdx := if s.bitIdx = 0 then 0 else s.bitIdx - 1 }) ∧
  (∀ s : State, seqInvariant s → s.phase = .bits → s.pending = if s.bitIdx = 33 then 3 else 1)

/-- R83: PE.STEP.S0, run in phase BITS, `NEXT_TYPE` Space and bit 0: the space unchanged, one unit of mark, one
unit of space pending, `advance()`; where the sequencer runs it, 3 units are pending at the first bit and 1 after
it. -/
def Obligations.StepS0InsertsAMark : Prop :=
  (∀ s : State, s.phase = .bits → s.nextType = .space → s.currentBit = false → step s = exec .peStepS0 s) ∧
  (∀ s : State, exec .peStepS0 s = .next
    { s with
      tx := s.tx ++ [.space s.pending.toNat, .mark 1]
      pending := 1
      nextType := .space
      phase := if s.bitIdx = 0 then .trail else s.phase
      bitIdx := if s.bitIdx = 0 then 0 else s.bitIdx - 1 }) ∧
  (∀ s : State, seqInvariant s → s.phase = .bits → s.pending = if s.bitIdx = 33 then 3 else 1)

/-- R84: PE.STEP.M1, run in phase BITS, `NEXT_TYPE` Mark and bit 1, in the corrected reading: the mark unchanged,
one unit of space, one unit of mark pending, `advance()`; where the sequencer runs it one unit is pending. -/
def Obligations.StepM1InsertsASpace : Prop :=
  (∀ s : State, s.phase = .bits → s.nextType = .mark → s.currentBit = true → step s = exec .peStepM1 s) ∧
  (∀ s : State, exec .peStepM1 s = .next
    { s with
      tx := s.tx ++ [.mark s.pending.toNat, .space 1]
      pending := 1
      nextType := .mark
      phase := if s.bitIdx = 0 then .trail else s.phase
      bitIdx := if s.bitIdx = 0 then 0 else s.bitIdx - 1 }) ∧
  (∀ s : State, seqInvariant s → s.phase = .bits → s.nextType = .mark → s.pending = 1)

/-- R85: PE.STEP.M0, run in phase BITS, `NEXT_TYPE` Mark and bit 0, in the corrected reading: one mark a unit
longer, one unit of space pending, `advance()`; where the sequencer runs it one unit is pending. -/
def Obligations.StepM0ExtendsTheMark : Prop :=
  (∀ s : State, s.phase = .bits → s.nextType = .mark → s.currentBit = false → step s = exec .peStepM0 s) ∧
  (∀ s : State, exec .peStepM0 s = .next
    { s with
      tx := s.tx ++ [.mark (s.pending.toNat + 1)]
      pending := 1
      nextType := .space
      phase := if s.bitIdx = 0 then .trail else s.phase
      bitIdx := if s.bitIdx = 0 then 0 else s.bitIdx - 1 }) ∧
  (∀ s : State, seqInvariant s → s.phase = .bits → s.nextType = .mark → s.pending = 1)

/-- R50: the selector is `{NEXT_TYPE, b}`, and its four values select S0, S1, M0 and M1. -/
def Obligations.SelectorPicksTheBitStep : Prop :=
  decode (.step2 0b00) = .ok .peStepS0 ∧ decode (.step2 0b01) = .ok .peStepS1 ∧
  decode (.step2 0b10) = .ok .peStepM0 ∧ decode (.step2 0b11) = .ok .peStepM1 ∧
  ∀ s : State, s.phase = .bits → s.fetch = .step2 s.stepSelector ∧
    s.stepSelector.getLsbD 1 = (s.nextType == .mark) ∧ s.stepSelector.getLsbD 0 = s.currentBit

/-- R87: in phase TRAIL the step runs PE.TRAIL: one space of the pending length whatever `NEXT_TYPE` is, then the
footer after the third repetition and the next header before; where the sequencer runs it the space is
`Space(1)`. -/
def Obligations.TrailClosesRepetition : Prop :=
  (∀ s : State, s.phase = .trail → step s = exec .peTrail s) ∧
  (∀ s : State, s.rep = 2 → exec .peTrail s = .next { s with tx := s.tx ++ [.space s.pending.toNat], phase := .footer }) ∧
  (∀ s : State, s.rep ≠ 2 → exec .peTrail s = .next
    { s with tx := s.tx ++ [.space s.pending.toNat], rep := s.rep + 1, phase := .header }) ∧
  (∀ s : State, seqInvariant s → s.phase = .trail → s.pending = 1)

/-- R89: PE.FOOTER emits `Mark(4)` and sets `PHASE = IDLE`; in phase FOOTER the step runs it; in every transmission the
footer follows a `Space(1)` and is the last pulse. -/
def Obligations.FooterEndsTransmission : Prop :=
  (∀ s : State, exec .peFooter s = .next { s with tx := s.tx ++ [.mark 4], phase := .idle }) ∧
  (∀ s : State, s.phase = .footer → step s = exec .peFooter s) ∧
  (∀ f, ∃ l, pulses f = l ++ [.space 1, .mark 4])

/-- R90: `OP = 0b011` is PE.ENCODE of `FRAME_IN`; it latches the frame, appends `events(f)` to the TX stream and
ends with `PHASE = IDLE`; it writes the working registers `PENDING`, `NEXT_TYPE`, `BITIDX` and `REP` too, and changes
nothing else; `events(f)` is `Begin`, `Carrier(38000)`, three times `rep(f)`, `Mark(4)`, `Send`. -/
def Obligations.PeEncodeTransmitsTheFrame : Prop :=
  (∀ p : Ports, p.rst = 0 → p.op = 0b011 → decode (.ports p) = .ok (.peEncode p.frameIn)) ∧
  (∀ (s : State) f, ∃ t, exec (.peEncode f) s = .next t ∧ t.frame = f ∧
    t.tx = s.tx ++ ([.beginFrame, .carrier 38000] ++ repetition f ++ repetition f ++ repetition f ++
      [.mark 4, .send]) ∧
    t.phase = .idle ∧ t.prevMode = s.prevMode ∧ t.modeOut = s.modeOut ∧ t.request = s.request) ∧
  (events 0x270480002).length = 184

/-- R24, its last sentences: the values of the working registers after a completed PE.ENCODE or CONTROL; the model's own
fields say that no call of `TxEmit` remains (log entry 8) and keep whether a RESET has been performed (log entry 3); and
the bit run of any frame leaves one unit pending, of a space where bit 0 is 0 (R87). -/
def Obligations.WorkingRegistersAfterATransmission : Prop :=
  (∀ (s : State) i, (∃ f, i = .peEncode f) ∨ (s.resetDone = true ∧ ∃ m temp, i = .control m temp) → ∃ t, exec i s = .next t ∧
    t.pending = 1 ∧ t.bitIdx = 0 ∧ t.rep = 2 ∧ t.phase = .idle ∧
    t.nextType = (if t.frame.getLsbD 0 then .mark else .space) ∧ t.txCall = none ∧ t.resetDone = s.resetDone) ∧
  (∀ f : FrameWord, (bits f 3 .space).2.1 = 1 ∧ (f.getLsbD 0 = false → (bits f 3 .space).2.2 = .space))

/-- R95: from phase HEADER with `REP = 0` the sequencer runs its 109 micro-steps in the fixed order, its position after
`k` of them being a function of `k` alone, each bit step selected by `NEXT_TYPE` and the frame bit; after them `PHASE` is
IDLE and `pulses(f)` has been emitted. -/
def Obligations.SequencerRunsTheMicroSteps : Prop :=
  ∀ s : State, s.phase = .header → s.rep = 0 →
    (∀ k < 109, ∃ t, Sys2Proof.core.run k s = .next t ∧
      t.phase = (if k = 108 then .footer else if k % 36 = 0 then .header else if k % 36 = 35 then .trail
        else .bits) ∧
      (1 ≤ k % 36 → k % 36 ≤ 34 → t.bitIdx = BitVec.ofNat 6 (34 - k % 36)) ∧
      t.rep = (if k = 108 then 2 else BitVec.ofNat 2 (k / 36)) ∧
      (t.phase = .header → decode t.fetch = .ok .peHeader) ∧
      (t.phase = .bits → decode t.fetch = .ok (
        match t.nextType, s.frame.getLsbD (34 - k % 36) with
        | .space, false => .peStepS0
        | .space, true => .peStepS1
        | .mark, false => .peStepM0
        | .mark, true => .peStepM1)) ∧
      (t.phase = .trail → decode t.fetch = .ok .peTrail) ∧
      (t.phase = .footer → decode t.fetch = .ok .peFooter)) ∧
    ∃ t, Sys2Proof.core.run 109 s = .next t ∧ t.phase = .idle ∧ t.tx = s.tx ++ pulses s.frame ∧ t.frame = s.frame ∧
      t.prevMode = s.prevMode ∧ t.modeOut = s.modeOut ∧ t.txCall = s.txCall

/-- R92: for a frame with bit 0 = 0, one repetition is the run-length encoding of three units of mark, three of
space, and for each bit from 33 down space-mark for a 1 and mark-space for a 0. -/
def Obligations.RepetitionIsTheLineCode : Prop :=
  ∀ f : FrameWord, f.getLsbD 0 = false → repetition f = runLength (levels f)

/-- R94 (a): for a frame with bit 0 = 0, no two neighbouring pulses of a transmission have the same type; the list
holds pulses only, begins with `Mark(3)` and ends with `Mark(4)`. -/
def Obligations.PulsesAlternate : Prop :=
  ∀ f : FrameWord, f.getLsbD 0 = false →
    allPulses (pulses f) ∧ alternates (pulses f) ∧ (pulses f).head? = some (.mark 3) ∧
    (pulses f).getLast? = some (.mark 4)

/-- R94 (b), R93 and R135: every repetition lasts 74 units and the whole transmission 226, whatever the frame;
for every `TIME_UNIT`, a positive real number of seconds (R6; log entry 12), that is 226 times the unit. -/
def Obligations.TransmissionLasts226Units : Prop :=
  ∀ f : FrameWord, totalUnits (repetition f) = 74 ∧ totalUnits (pulses f) = 226 ∧
    ∀ timeUnit : Config.TimeUnit, physicalLength timeUnit (events f) = 226 * timeUnit.seconds ∧
      0 < physicalLength timeUnit (events f)

/-- R94 (c): for a frame with bit 0 = 0 a repetition has `36 + z + E` pulses, an even number; the transmission has
three times that, plus one; for a buildable frame the number is 58 to 64. -/
def Obligations.PulseCounts : Prop :=
  (∀ f : FrameWord, f.getLsbD 0 = false →
    (repetition f).length = 36 + topBitClear f + equalNeighbours f ∧ (repetition f).length % 2 = 0 ∧
    (pulses f).length = 3 * (repetition f).length + 1) ∧
  (∀ f, Buildable f → 58 ≤ (repetition f).length ∧ (repetition f).length ≤ 64)

/-- R91 (b) and (c): every pulse of a transmission lasts 1, 2, 3 or 4 units, so no zero-length pulse is emitted, and
every event word is one of eleven. -/
def Obligations.DurationsAreOneToFour : Prop :=
  ∀ f : FrameWord, (∀ e ∈ pulses f, 1 ≤ e.units ∧ e.units ≤ 4) ∧ ∀ e ∈ events f, e.word ∈ emittedWords

/-- R93: for a frame with bit 0 = 1 every repetition ends with two neighbouring spaces, the second `Space(1)`; it
still lasts 74 units; alternation is lost; nothing faults and the operation completes. -/
def Obligations.OddFrameEndsInTwoSpaces : Prop :=
  (∀ f : FrameWord, f.getLsbD 0 = true →
    (∃ l n, repetition f = l ++ [.space n, .space 1]) ∧ totalUnits (repetition f) = 74 ∧
    ¬ alternates (pulses f) ∧
    ∀ s : State, ∃ t, exec (.peEncode f) s = .next t ∧ t.tx = s.tx ++ events f ∧ t.nextType = .mark) ∧
  ∃ l, repetition 0x000000001 = l ++ [.mark 1, .space 2, .space 1]

/-! The control call, NOP, reserved codes, RESET (43_control.md, 70_reset_and_hazards.md). -/

/-- R100: `OP = 0b001` is CONTROL of `MODE_IN` and `TEMP_IN`; once a RESET has been performed (R127) the frame is built from the old `PREV_MODE`,
`PREV_MODE` takes `MODE_IN` as given, `events` of the built frame are appended, `PHASE` ends IDLE, `MODE_OUT` stays
(the working registers are written too); the corner cases (a), (b) and (c) of the rule; the example from
`PREV_MODE = Off`. -/
def Obligations.ControlIsTheWholeFlow : Prop :=
  (∀ p : Ports, p.rst = 0 → p.op = 0b001 → decode (.ports p) = .ok (.control p.modeIn p.tempIn)) ∧
  (∀ (s : State) m temp, s.resetDone = true → ∃ t, exec (.control m temp) s = .next t ∧
    t.frame = build m temp s.prevMode ∧ t.prevMode = m ∧ t.tx = s.tx ++ events (build m temp s.prevMode) ∧
    t.phase = .idle ∧ t.modeOut = s.modeOut ∧ t.request = s.request) ∧
  (∀ (s : State) temp, s.resetDone = true → s.prevMode = Mode.off → ∃ t u, exec (.control Mode.cool temp) s = .next t ∧
    (unpackFrame t.frame).power = 1 ∧ exec (.control Mode.cool temp) t = .next u ∧
    (unpackFrame u.frame).power = 0) ∧
  (∀ (s : State) temp, s.resetDone = true → ∃ t, exec (.control Mode.off temp) s = .next t ∧
    (unpackFrame t.frame).power = 0 ∧ t.prevMode = Mode.off) ∧
  (∀ (s : State) m temp temp', s.resetDone = true → recognized m = false → ∃ t u, exec (.control m temp) s = .next t ∧
    (unpackFrame t.frame).mode = Mode.off ∧ t.prevMode = m ∧ exec (.control Mode.cool temp') t = .next u ∧
    (unpackFrame u.frame).power = 0) ∧
  (∀ s : State, s.resetDone = true → s.prevMode = Mode.off → ∃ t, exec (.control Mode.cool 0x1800) s = .next t ∧
    t.frame = 0x270480002 ∧ t.prevMode = Mode.cool ∧ t.tx = s.tx ++ events 0x270480002 ∧
    (events 0x270480002).length = 184)

/-- R103 and R55: between operations, a RESET having been performed (R127), the four operations of `CONTROL.X m, t` end where `CONTROL m, t` ends, but for
`MODE_OUT`, which they set to the old `PREV_MODE` (and for what is presented, which is the host's). -/
def Obligations.ControlEqualsFourOperations : Prop :=
  ∀ (s : State) m temp, betweenOperations s → s.resetDone = true → ∃ t u,
    exec (.control m temp) s = .next t ∧
    runLines (controlX (.literal m) (.literal temp)) s = .next u ∧
    u = { t with modeOut := s.prevMode, request := u.request } ∧ t.modeOut = s.modeOut

/-- R104: one control call, a RESET having been performed (R127), appends exactly one `Begin`, one `Carrier(38000)`, one `pulses(FRAME)` and one `Send`, in
that order, and the part between is pulses only. -/
def Obligations.OneTransmissionPerControl : Prop :=
  ∀ (s : State) m temp, s.resetDone = true → ∃ t, exec (.control m temp) s = .next t ∧
    t.tx = s.tx ++ ([.beginFrame, .carrier 38000] ++ pulses t.frame ++ [.send]) ∧
    allPulses (pulses t.frame) ∧ t.prevMode = m

/-- R101: `OP = 0b000` is NOP, and NOP changes nothing. -/
def Obligations.NopChangesNothing : Prop :=
  (∀ p : Ports, p.rst = 0 → p.op = 0b000 → decode (.ports p) = .ok .nop) ∧ ∀ s : State, exec .nop s = .next s

/-- R102: the codes `0b110` and `0b111` are OP.RESERVED, which the model refuses on every path, as the rule asks of
a model (log entry 5). -/
def Obligations.ReservedCodesAreRefused : Prop :=
  (∀ (s : State) low, exec (.opReserved low) s = .refused .reservedOp) ∧
  (∀ (s : State) (p : Ports), betweenOperations s → p.rst = 0 → p.op = 0b110 ∨ p.op = 0b111 →
    step (s.present p) = .refused .reservedOp)

/-- R125: `RST = 1` is RESET with `INIT_MODE`; it sets every register as the rule says, for every one of the eight
codes, empties the record of the TX stream and emits nothing; TRK.READ then shows the code. -/
def Obligations.ResetSetsEveryRegister : Prop :=
  (∀ p : Ports, p.rst = 1 → decode (.ports p) = .ok (.reset p.initMode)) ∧
  (∀ (s : State) m, ∃ t, exec (.reset m) s = .next t ∧ t.prevMode = m ∧ t.modeOut = m ∧ t.frame = 0 ∧ t.pending = 0 ∧
    t.nextType = .space ∧ t.bitIdx = 0 ∧ t.rep = 0 ∧ t.phase = .idle ∧ t.tx = [] ∧ t.request = s.request) ∧
  (∀ s : State, ∃ t u, exec (.reset Mode.off) s = .next t ∧ exec .trkRead t = .next u ∧ u.modeOut = 0b111)

/-- R23, but for the value of `PREV_MODE`, which the rule leaves OPEN (State.reset names one: log entry 2): the
reset state holds the reset values, and RESET with any mode from any state gives it with that mode. The model's own
fields say that a RESET has been performed (log entry 3) and that no call of `TxEmit` remains (log entry 8). -/
def Obligations.ResetStateHoldsTheResetValues : Prop :=
  State.reset.frame = 0 ∧ State.reset.pending = 0 ∧ State.reset.nextType = .space ∧ State.reset.bitIdx = 0 ∧
  State.reset.rep = 0 ∧ State.reset.phase = .idle ∧ State.reset.modeOut = State.reset.prevMode ∧
  State.reset.tx = [] ∧ State.reset.txCall = none ∧ State.reset.resetDone = true ∧
  ∀ (s : State) m, exec (.reset m) s = .next { State.reset with prevMode := m, modeOut := m, request := s.request }

/-- R126: `RST = 1` overrides `OP`, and nothing presented, RESET included, enters a transmission: there, up to its `Send`,
a step does the same whatever is presented (log entries 9 and 11). -/
def Obligations.RstOverridesOpBetweenOperations : Prop :=
  (∀ (s : State) (p : Ports), betweenOperations s → p.rst = 1 →
    step (s.present p) = exec (.reset p.initMode) (s.present p)) ∧
  (∀ (s : State) (p : Ports), s.phase ≠ .idle ∨ s.txCall = sendCall → ∃ t, step s = .next t ∧ step (s.present p) = .next (t.present p))

/-- R19: an operation ignores the ports it does not use, whatever they hold (so does its refusal: a reserved code, log
entry 5; CONTROL and TRK.READ before any RESET, log entry 3). -/
def Obligations.UnusedPortsAreIgnored : Prop :=
  ∀ (s : State) (p q : Ports), betweenOperations s → p.rst = q.rst → p.op = q.op →
    (p.rst = 1 → p.initMode = q.initMode) →
    (p.op = 0b001 ∨ p.op = 0b010 ∨ p.op = 0b101 → p.modeIn = q.modeIn) →
    (p.op = 0b001 ∨ p.op = 0b010 → p.tempIn = q.tempIn) → (p.op = 0b010 → p.prevIn = q.prevIn) →
    (p.op = 0b011 → p.frameIn = q.frameIn) →
    (∃ t, step (s.present p) = .next t ∧ step (s.present q) = .next (t.present q)) ∨
    (p.rst = 0 ∧ (p.op = 0b110 ∨ p.op = 0b111) ∧ step (s.present p) = .refused .reservedOp ∧
      step (s.present q) = .refused .reservedOp) ∨
    (p.rst = 0 ∧ (p.op = 0b001 ∨ p.op = 0b100) ∧ s.resetDone = false ∧ step (s.present p) = .refused .beforeReset ∧
      step (s.present q) = .refused .beforeReset)

/-! The whole machine. -/

/-- A step runs the decoded instruction: it is `exec` of what `fetch` finds, with nothing added. What `fetch` finds is
partly the model's choice: between operations what is presented (log entry 1), after the last micro-step the `Send` that
remains (log entries 8 and 9); and a word of no table row is refused by name (log entry 15). -/
def Obligations.StepRunsTheDecodedInstruction : Prop :=
  (∀ (s : State) i, decode s.fetch = .ok i → step s = exec i s) ∧
  (∀ (s : State) why, decode s.fetch = .error why → step s = .refused (.undecodable why)) ∧
  (∀ (s : State) (p : Ports), betweenOperations s → (s.present p).fetch = .ports p) ∧
  (∀ s : State, s.phase = .idle → s.txCall = sendCall → decode s.fetch = .ok (.txSend 0)) ∧
  (∀ s : State, s.phase = .header → decode s.fetch = .ok .peHeader) ∧
  (∀ s : State, s.phase = .trail → decode s.fetch = .ok .peTrail) ∧
  (∀ s : State, s.phase = .footer → decode s.fetch = .ok .peFooter)

/-- An opcode-table word placed by `withFetchWord` is what the next step runs (log entry 6). -/
def Obligations.PlacedTableWordRuns : Prop :=
  ∀ (s : State) nbits w i, decodeTableWord nbits w = some i →
    step (s.withFetchWord nbits w) = exec i (s.withFetchWord nbits w)

/-- R110, R113, R127: a step never faults, and it refuses only between operations: a reserved code without RST, CONTROL
or TRK.READ before any RESET (log entry 3), or a word that is no row of the table: a presented frame that matches no row
of R56, an event word of a kind that R51 never produces (log entry 15). CONTROL and TRK.READ before any RESET are
always refused. -/
def Obligations.OnlyReservedCodesAndForeignWordsStop : Prop :=
  (∀ s : State, (∃ t, step s = .next t) ∨
    (s.phase = .idle ∧
      ((s.txCall = none ∧ ∃ p, s.request = .ports p ∧ p.rst = 0 ∧ (p.op = 0b110 ∨ p.op = 0b111) ∧
        step s = .refused .reservedOp) ∨
      (s.txCall = none ∧ s.resetDone = false ∧ ∃ p, s.request = .ports p ∧ p.rst = 0 ∧ (p.op = 0b001 ∨ p.op = 0b100) ∧
        step s = .refused .beforeReset) ∨
      (s.txCall = none ∧ ∃ f, s.request = .frameWord f ∧
        f &&& 0x1FF87FFFF ≠ 0x070000002 ∧ f &&& 0x1FF87FFFF ≠ 0x0B0000002 ∧ f &&& 0x1FF87FFFF ≠ 0x0F0000002 ∧
        f &&& 0x3FF87FFFF ≠ 0x1F0000002 ∧ f &&& 0x1FF87FFFF ≠ 0x130000002 ∧ f &&& 0x1FF87FFFF ≠ 0x170000002 ∧
        step s = .refused (.undecodable (.noFrameKind f))) ∨
      (∃ w, s.txCall = some w ∧ 5 ≤ (txKind w).toNat ∧
        step s = .refused (.undecodable (.noEventKind (txKind w))))))) ∧
  (∀ (s : State) m temp, s.resetDone = false →
    exec (.control m temp) s = .refused .beforeReset ∧ exec .trkRead s = .refused .beforeReset)

/-- R11, R12, R20: only TRK.UPDATE, CONTROL and RESET write `PREV_MODE`; only TRK.READ and RESET write `MODE_OUT`;
only FE.BUILD, PE.ENCODE, CONTROL, RESET and the frame rows (log entry 7) write `FRAME`. Only RESET changes whether a
RESET has been performed (R127; log entry 3), and no instruction changes what is presented (log entry 1). -/
def Obligations.RegistersHaveOnlyTheirWriters : Prop :=
  ∀ (i : Instr) (s t : State), exec i s = .next t →
    (t.prevMode = s.prevMode ∨ (∃ m, i = .trkUpdate m) ∨ (∃ m temp, i = .control m temp) ∨ ∃ m, i = .reset m) ∧
    (t.modeOut = s.modeOut ∨ i = .trkRead ∨ ∃ m, i = .reset m) ∧
    (t.frame = s.frame ∨ (∃ m temp prev, i = .feBuild m temp prev) ∨ (∃ f, i = .peEncode f) ∨
      (∃ m temp, i = .control m temp) ∨ (∃ m, i = .reset m) ∨ (∃ f, encode i = .f34 f)) ∧
    (t.resetDone = s.resetDone ∨ ∃ m, i = .reset m) ∧ t.request = s.request

/-- R18, R35: the TX stream only grows at its end, but for RESET, which empties it; what is appended is appended by
PE.ENCODE, CONTROL, a micro-step of theirs, a frame row, which is PE.ENCODE of that frame (log entry 7), or an event row
whose word is the call of `TxEmit` that the operation in progress makes (log entry 8), and that row appends that one
event of R51. -/
def Obligations.TxStreamIsAppendOnly : Prop :=
  ∀ (i : Instr) (s t : State), exec i s = .next t →
    ((∃ m, i = .reset m) ∧ t.tx = []) ∨
    (∃ l, t.tx = s.tx ++ l ∧
      (l = [] ∨ (∃ f, i = .peEncode f) ∨ (∃ m temp, i = .control m temp) ∨ (∃ ph, encode i = .seq ph) ∨
        (∃ sel, encode i = .step2 sel) ∨ (∃ f, encode i = .f34 f) ∨
        ∃ w e, encode i = .txw w ∧ s.txCall = some w ∧ l = [e] ∧ e.word = w ∧ w ∈ emittedWords))

/-- R24: between operations `PENDING`, `NEXT_TYPE`, `BITIDX` and `REP` influence nothing: two states that differ
only there, given the same request, refuse alike or go to states that again differ only there. -/
def Obligations.WorkingRegistersInfluenceNothing : Prop :=
  ∀ s s' : State, sameVisible s s' →
    (∃ t t', step s = .next t ∧ step s' = .next t' ∧ sameVisible t t') ∨
    (∃ r, step s = .refused r ∧ step s' = .refused r)

/-- R13, R15, R16, R17, R91 (a): what the sequencer's registers can hold at each phase is kept by every step; with it,
that while a transmission runs its `Send` remains to be called (R90; log entry 8). -/
def Obligations.StepKeepsSequencerInvariant : Prop :=
  ∀ s t : State, seqInvariant s → step s = .next t → seqInvariant t

/-- R34, R104, R126: that no operation is in progress and the TX stream is a list of whole transmissions, each from
`Begin` to `Send`, is kept by every step, whatever is presented. -/
def Obligations.StepKeepsWholeTransmissions : Prop :=
  ∀ s t : State, streamInvariant s → step s = .next t → streamInvariant t

/-- The two invariants hold at reset. -/
def Obligations.ResetMeetsTheInvariants : Prop :=
  seqInvariant State.reset ∧ streamInvariant State.reset

/-- R136: a run, a RESET and then any list of operations without a reserved code, started between operations,
completes: it ends between operations with a TX stream of whole transmissions, whatever was on the stream before and
whether or not a RESET had been performed. -/
def Obligations.RunsOfOperationsComplete : Prop :=
  ∀ (ps : List Ports) (p : Ports) (s : State), betweenOperations s → p.rst = 1 → (∀ q ∈ ps, servable q) →
    ∃ t, runOps (p :: ps) s = .next t ∧ streamInvariant t

/-- R37 (a): after TRK.UPDATE, CONTROL or RESET, a RESET having been performed (R127) if it is not that, and any operations that are not one of these, TRK.READ shows the
mode that it wrote. -/
def Obligations.ReadShowsTheLatestMode : Prop :=
  ∀ (ps : List Ports) (p : Ports) (s : State) m, betweenOperations s → (s.resetDone = true ∨ p.rst = 1) → (∀ q ∈ ps, servable q) →
    (decodePorts p = .trkUpdate m ∨ (∃ temp, decodePorts p = .control m temp) ∨ decodePorts p = .reset m) →
    (∀ q ∈ ps, q.rst = 0 ∧ q.op ≠ 0b101 ∧ q.op ≠ 0b001) →
    ∃ t, runOps (p :: ps) s = .next t ∧ betweenOperations t ∧ exec .trkRead t = .next { t with modeOut := m }

/-! Encodings. -/

/-- Decode and encode agree: every instruction, with every operand at every value of its width, decodes from its
encoding. -/
def Obligations.DecodeOfEncode : Prop :=
  ∀ i : Instr, decode (encode i) = .ok i

/-- No bit of a word is dropped: in the formats STEP2, SEQ, F34 and TXW the encoding of what a word decodes to is the
word; on the ports it agrees with the word on `RST`, on `INIT_MODE` for RESET, and otherwise on `OP` and on every operand
port that the operation uses (R19). -/
def Obligations.EncodeOfDecode : Prop :=
  ∀ e i, decode e = .ok i →
    (encode i = e ∧ ∀ p, e ≠ .ports p) ∨
    ∃ p q, e = .ports p ∧ encode i = .ports q ∧ p.rst = q.rst ∧ (p.rst = 1 → p.initMode = q.initMode) ∧
      (p.rst = 0 → p.op = q.op ∧
        (p.op = 0b001 ∨ p.op = 0b010 ∨ p.op = 0b101 → p.modeIn = q.modeIn) ∧
        (p.op = 0b001 ∨ p.op = 0b010 → p.tempIn = q.tempIn) ∧ (p.op = 0b010 → p.prevIn = q.prevIn) ∧
        (p.op = 0b011 → p.frameIn = q.frameIn))

/-- Words written out from the tables of R48, R50, R51 and R56 decode to the instructions they stand for. -/
def Obligations.SampleWordsDecode : Prop :=
  decode (.ports { Ports.zero with op := 0b001, modeIn := 0b001, tempIn := 0x1800 }) = .ok (.control 0b001 0x1800) ∧
  decode (.ports { Ports.zero with rst := 1, initMode := 0b111 }) = .ok (.reset 0b111) ∧
  decode (.f34 0b1001110000010010000000000000000010) = .ok (.frameCool 1 0b1001) ∧
  decode (.txw 0b0110000000000000011) = .ok (.txMark 3) ∧
  decode (.step2 0b10) = .ok .peStepM0 ∧ decode (.seq 0b011) = .ok .peTrail

/-- What the model does with a frame row (log entry 7, the model's choice from R52 and R90): it completes, latching
and serializing that frame, as PE.ENCODE of it does. -/
def Obligations.FrameRowsSerialize : Prop :=
  ∀ (s : State) (power : BitVec 1) (temperature : BitVec 4),
    exec (.frameCool power temperature) s = .next (s.setFrame (kindFrame 0b001 power temperature)).transmitted ∧
    exec (.frameHeat power temperature) s = .next (s.setFrame (kindFrame 0b010 power temperature)).transmitted ∧
    exec (.frameAuto power temperature) s = .next (s.setFrame (kindFrame 0b011 power temperature)).transmitted ∧
    exec (.frameOff temperature) s = .next (s.setFrame (kindFrame 0b111 0 temperature)).transmitted ∧
    exec (.frameDry power temperature) s = .next (s.setFrame (kindFrame 0b100 power temperature)).transmitted ∧
    exec (.frameFan power temperature) s = .next (s.setFrame (kindFrame 0b101 power temperature)).transmitted ∧
    ∀ i f, encode i = .f34 f → exec i s = exec (.peEncode f) s

/-- What the model does with an event row (log entry 8, the model's choice from R8, R18, R51 and R90): where the
operation in progress makes the call of `TxEmit` with that word, and the word is one of an event of R51, the row
completes, appending that event and ending the call; in every other state it completes and changes nothing. The call
that a transmission makes after its 109 micro-steps is its `Send`: run step by step from `startTransmission`, 110 steps
do what the atomic operation does (log entry 9; R34, R90). -/
def Obligations.EventRowsEmit : Prop :=
  (∀ s : State, s.txCall = some 0x00000 →
    exec (.txBegin 0) s = .next { s with tx := s.tx ++ [.beginFrame], txCall := none }) ∧
  (∀ s : State, s.txCall = some 0x19470 →
    exec (.txCarrier 38000) s = .next { s with tx := s.tx ++ [.carrier 38000], txCall := none }) ∧
  (∀ (s : State) n, 1 ≤ n.toNat → n.toNat ≤ 4 → s.txCall = some (txWord 0b010 n) →
    exec (.txSpace n) s = .next { s with tx := s.tx ++ [.space n.toNat], txCall := none }) ∧
  (∀ (s : State) n, 1 ≤ n.toNat → n.toNat ≤ 4 → s.txCall = some (txWord 0b011 n) →
    exec (.txMark n) s = .next { s with tx := s.tx ++ [.mark n.toNat], txCall := none }) ∧
  (∀ s : State, s.txCall = some 0x40000 →
    exec (.txSend 0) s = .next { s with tx := s.tx ++ [.send], txCall := none }) ∧
  (∀ (s : State) i w, encode i = .txw w → s.txCall ≠ some w ∨ i.wf = false → exec i s = .next s) ∧
  ∀ s : State, Sys2Proof.core.run 110 s.startTransmission = .next s.transmitted
end

