-- ==== Sys2Proof/Laws/Encoding.lean ====
section
/-! SUPPORT. The frame layout loses no bit in either direction, and so do the event words (R41, R51). -/

namespace Sys2Proof

/-- Twelve fields packed and read back are the fields (R41). -/
@[simp] theorem unpackFrame_packFrame (x : FrameFields) : unpackFrame (packFrame x) = x := by
  rcases x with ⟨p, m, fan, z4, sw, ife, z3, t, sl, z2, one, z⟩
  simp only [unpackFrame, packFrame, FrameFields.mk.injEq]
  refine ⟨?_, ?_, ?_, ?_, ?_, ?_, ?_, ?_, ?_, ?_, ?_, ?_⟩ <;>
    (apply BitVec.eq_of_getLsbD_eq; intro i hi
     simp only [BitVec.getLsbD_extractLsb', BitVec.getLsbD_append, hi, decide_true, Bool.true_and]
     interval_cases i <;> simp)

/-- A frame read and packed again is the frame (R41: the widths sum to 34). -/
@[simp] theorem packFrame_unpackFrame (f : FrameWord) : packFrame (unpackFrame f) = f := by
  apply BitVec.eq_of_getLsbD_eq
  intro i hi
  simp only [packFrame, unpackFrame, BitVec.getLsbD_extractLsb', BitVec.getLsbD_append]
  interval_cases i <;> simp

@[simp] theorem txKind_txWord (k : BitVec 3) (a : BitVec 16) : txKind (txWord k a) = k := by
  apply BitVec.eq_of_getLsbD_eq
  intro i hi
  simp only [txKind, txWord, BitVec.getLsbD_extractLsb', BitVec.getLsbD_append]
  interval_cases i <;> simp

@[simp] theorem txArg_txWord (k : BitVec 3) (a : BitVec 16) : txArg (txWord k a) = a := by
  apply BitVec.eq_of_getLsbD_eq
  intro i hi
  simp only [txArg, txWord, BitVec.getLsbD_extractLsb', BitVec.getLsbD_append]
  interval_cases i <;> simp

@[simp] theorem txWord_txKind_txArg (w : TxWord) : txWord (txKind w) (txArg w) = w := by
  apply BitVec.eq_of_getLsbD_eq
  intro i hi
  simp only [txArg, txWord, txKind, BitVec.getLsbD_append, BitVec.getLsbD_extractLsb']
  interval_cases i <;> simp

end Sys2Proof
end

