-- ==== Sys2Proof/Laws/FrameEncoder.lean ====
section
/-! SUPPORT. What `build` and `temp_field` do, each said once. -/

namespace Sys2Proof.Machine

/-- The fields of a built frame, read back from its 34 bits (R65, R66). -/
@[simp] theorem unpackFrame_build (m : ModeCode) (t : TempWord) (prev : ModeCode) :
    unpackFrame (build m t prev) = buildFields m t prev := by
  simp [build]

/-- The mode and power of a request are one of the four arms (R67 to R70). -/
theorem modeAndPower_cases (m prev : ModeCode) :
    (m = Mode.cool ∧ modeAndPower m prev = (Mode.cool, if prev = Mode.off then 1 else 0)) ∨
      (m = Mode.heat ∧ modeAndPower m prev = (Mode.heat, if prev = Mode.off then 1 else 0)) ∨
      (m = Mode.auto ∧ modeAndPower m prev = (Mode.auto, if prev = Mode.off then 1 else 0)) ∨
      (m ≠ Mode.cool ∧ m ≠ Mode.heat ∧ m ≠ Mode.auto ∧ modeAndPower m prev = (Mode.off, 0)) := by
  by_cases hc : m = Mode.cool
  · exact .inl ⟨hc, by simp [modeAndPower, hc]⟩
  by_cases hh : m = Mode.heat
  · exact .inr (.inl ⟨hh, by simp [modeAndPower, hh, show Mode.heat ≠ Mode.cool by decide]⟩)
  by_cases ha : m = Mode.auto
  · exact .inr (.inr (.inl ⟨ha, by
      simp [modeAndPower, ha, show Mode.auto ≠ Mode.cool by decide, show Mode.auto ≠ Mode.heat by decide]⟩))
  · exact .inr (.inr (.inr ⟨hc, hh, ha, by simp [modeAndPower, hc, hh, ha]⟩))

/-- The rounded temperature is 16 to 30, whatever the operand (R44, R71, R75). -/
theorem roundedTemp_bounds (t : TempWord) : 16 ≤ roundedTemp t ∧ roundedTemp t ≤ 30 := by
  simp only [roundedTemp, clamp, degrees, Config.tempMin, Config.tempMax, Config.tempFractionBits]
  by_cases h1 : tempUnits t < 16 * 2 ^ 8
  · simp only [h1, if_true]
    omega
  · by_cases h2 : 30 * 2 ^ 8 < tempUnits t
    · simp only [h1, h2, if_true, if_false]
      omega
    · simp only [h1, h2, if_false]
      omega

end Sys2Proof.Machine
end

