-- ==== Sys2Proof/Laws/PerInstr.lean ====
section
/-! SUPPORT. Statements about every instruction as syntax, one lemma per constructor. The family
`EncodingMatchesTable` holds the encoder against the `match` and `mask` columns of spec/opcode_table.json, which
the encoder is not written from. -/

namespace Sys2Proof.Laws.EncodingMatchesTable

/-- The `mask` and `match` of a row of spec/opcode_table.json. -/
def row : Instr → Nat × Nat
  | .nop => (0x7, 0x0)
  | .control _ _ => (0x7, 0x1)
  | .feBuild _ _ _ => (0x7, 0x2)
  | .peEncode _ => (0x7, 0x3)
  | .trkRead => (0x7, 0x4)
  | .trkUpdate _ => (0x7, 0x5)
  | .opReserved _ => (0x6, 0x6)
  | .reset _ => (0x1, 0x1)
  | .peStepS0 => (0x3, 0x0)
  | .peStepS1 => (0x3, 0x1)
  | .peStepM0 => (0x3, 0x2)
  | .peStepM1 => (0x3, 0x3)
  | .peHeader => (0x7, 0x1)
  | .peTrail => (0x7, 0x3)
  | .peFooter => (0x7, 0x4)
  | .frameCool _ _ => (0x1FF87FFFF, 0x070000002)
  | .frameHeat _ _ => (0x1FF87FFFF, 0x0B0000002)
  | .frameAuto _ _ => (0x1FF87FFFF, 0x0F0000002)
  | .frameOff _ => (0x3FF87FFFF, 0x1F0000002)
  | .frameDry _ _ => (0x1FF87FFFF, 0x130000002)
  | .frameFan _ _ => (0x1FF87FFFF, 0x170000002)
  | .txBegin _ => (0x70000, 0x00000)
  | .txCarrier _ => (0x70000, 0x10000)
  | .txSpace _ => (0x70000, 0x20000)
  | .txMark _ => (0x70000, 0x30000)
  | .txSend _ => (0x70000, 0x40000)

/-- The bits of an encoding that the table numbers: the pin `RST` for `RESET`, the port `OP` for an operation. -/
def tableBits : Encoding → Nat
  | .ports p => if p.rst = 1 then p.rst.toNat else p.op.toNat
  | .step2 sel => sel.toNat
  | .seq ph => ph.toNat
  | .f34 f => f.toNat
  | .txw w => w.toNat

/-- The encoding of an instruction matches its row of the table. -/
def Statement (i : Instr) : Prop := tableBits (encode i) &&& (row i).1 = (row i).2

theorem nop : Statement .nop := rfl
theorem control (m : ModeCode) (t : TempWord) : Statement (.control m t) := by
  simp [Statement, row, tableBits, encode, Ports.zero]
theorem feBuild (m : ModeCode) (t : TempWord) (prev : ModeCode) : Statement (.feBuild m t prev) := by
  simp [Statement, row, tableBits, encode, Ports.zero]
theorem peEncode (f : FrameWord) : Statement (.peEncode f) := by
  simp [Statement, row, tableBits, encode, Ports.zero]
theorem trkRead : Statement .trkRead := rfl
theorem trkUpdate (m : ModeCode) : Statement (.trkUpdate m) := by
  simp [Statement, row, tableBits, encode, Ports.zero]
theorem opReserved (low : BitVec 1) : Statement (.opReserved low) := by unfold Statement; revert low; decide
theorem reset (m : ModeCode) : Statement (.reset m) := by
  simp [Statement, row, tableBits, encode, Ports.zero]
theorem peStepS0 : Statement .peStepS0 := rfl
theorem peStepS1 : Statement .peStepS1 := rfl
theorem peStepM0 : Statement .peStepM0 := rfl
theorem peStepM1 : Statement .peStepM1 := rfl
theorem peHeader : Statement .peHeader := rfl
theorem peTrail : Statement .peTrail := rfl
theorem peFooter : Statement .peFooter := rfl
theorem frameCool (p : BitVec 1) (t : BitVec 4) : Statement (.frameCool p t) := by unfold Statement; revert p t; decide
theorem frameHeat (p : BitVec 1) (t : BitVec 4) : Statement (.frameHeat p t) := by unfold Statement; revert p t; decide
theorem frameAuto (p : BitVec 1) (t : BitVec 4) : Statement (.frameAuto p t) := by unfold Statement; revert p t; decide
theorem frameOff (t : BitVec 4) : Statement (.frameOff t) := by unfold Statement; revert t; decide
theorem frameDry (p : BitVec 1) (t : BitVec 4) : Statement (.frameDry p t) := by unfold Statement; revert p t; decide
theorem frameFan (p : BitVec 1) (t : BitVec 4) : Statement (.frameFan p t) := by unfold Statement; revert p t; decide

/-- Masking the kind of an event word leaves the kind, whatever the arg. -/
theorem txWord_masked (k : BitVec 3) (a : BitVec 16) : (txWord k a).toNat &&& 0x70000 = k.toNat * 0x10000 := by
  have h : txWord k a &&& 0x70000#19 = txWord k 0#16 := by
    apply BitVec.eq_of_getLsbD_eq
    intro i hi
    simp only [txWord, BitVec.getLsbD_and, BitVec.getLsbD_append]
    interval_cases i <;> simp [BitVec.getLsbD, Nat.testBit]
  have h' := congrArg BitVec.toNat h
  rw [BitVec.toNat_and] at h'
  refine h'.trans ?_
  rw [txWord, BitVec.toNat_append]
  simp [Nat.shiftLeft_eq]

theorem txBegin (a : BitVec 16) : Statement (.txBegin a) := txWord_masked 0 a
theorem txCarrier (a : BitVec 16) : Statement (.txCarrier a) := txWord_masked 1 a
theorem txSpace (a : BitVec 16) : Statement (.txSpace a) := txWord_masked 2 a
theorem txMark (a : BitVec 16) : Statement (.txMark a) := txWord_masked 3 a
theorem txSend (a : BitVec 16) : Statement (.txSend a) := txWord_masked 4 a

end Sys2Proof.Laws.EncodingMatchesTable
end

