-- ==== Sys2Proof/Laws/State.lean ====
section
/-! SUPPORT. The fields of the state after each named update: one lemma per field per update, so that no proof
unfolds a record update. -/

namespace Sys2Proof.Machine

variable (s : State)

@[simp] theorem State.txEmit_prevMode (e : TxEvent) : (s.txEmit e).prevMode = s.prevMode := rfl
@[simp] theorem State.txEmit_frame (e : TxEvent) : (s.txEmit e).frame = s.frame := rfl
@[simp] theorem State.txEmit_pending (e : TxEvent) : (s.txEmit e).pending = s.pending := rfl
@[simp] theorem State.txEmit_nextType (e : TxEvent) : (s.txEmit e).nextType = s.nextType := rfl
@[simp] theorem State.txEmit_bitIdx (e : TxEvent) : (s.txEmit e).bitIdx = s.bitIdx := rfl
@[simp] theorem State.txEmit_rep (e : TxEvent) : (s.txEmit e).rep = s.rep := rfl
@[simp] theorem State.txEmit_phase (e : TxEvent) : (s.txEmit e).phase = s.phase := rfl
@[simp] theorem State.txEmit_modeOut (e : TxEvent) : (s.txEmit e).modeOut = s.modeOut := rfl
@[simp] theorem State.txEmit_tx (e : TxEvent) : (s.txEmit e).tx = s.tx ++ [e] := rfl
@[simp] theorem State.txEmit_request (e : TxEvent) : (s.txEmit e).request = s.request := rfl
@[simp] theorem State.txEmit_txCall (e : TxEvent) : (s.txEmit e).txCall = s.txCall := rfl
@[simp] theorem State.txEmit_resetDone (e : TxEvent) : (s.txEmit e).resetDone = s.resetDone := rfl

@[simp] theorem State.setPrevMode_prevMode (m : ModeCode) : (s.setPrevMode m).prevMode = m := rfl
@[simp] theorem State.setPrevMode_frame (m : ModeCode) : (s.setPrevMode m).frame = s.frame := rfl
@[simp] theorem State.setPrevMode_pending (m : ModeCode) : (s.setPrevMode m).pending = s.pending := rfl
@[simp] theorem State.setPrevMode_nextType (m : ModeCode) : (s.setPrevMode m).nextType = s.nextType := rfl
@[simp] theorem State.setPrevMode_bitIdx (m : ModeCode) : (s.setPrevMode m).bitIdx = s.bitIdx := rfl
@[simp] theorem State.setPrevMode_rep (m : ModeCode) : (s.setPrevMode m).rep = s.rep := rfl
@[simp] theorem State.setPrevMode_phase (m : ModeCode) : (s.setPrevMode m).phase = s.phase := rfl
@[simp] theorem State.setPrevMode_modeOut (m : ModeCode) : (s.setPrevMode m).modeOut = s.modeOut := rfl
@[simp] theorem State.setPrevMode_tx (m : ModeCode) : (s.setPrevMode m).tx = s.tx := rfl
@[simp] theorem State.setPrevMode_request (m : ModeCode) : (s.setPrevMode m).request = s.request := rfl
@[simp] theorem State.setPrevMode_txCall (m : ModeCode) : (s.setPrevMode m).txCall = s.txCall := rfl
@[simp] theorem State.setPrevMode_resetDone (m : ModeCode) : (s.setPrevMode m).resetDone = s.resetDone := rfl

@[simp] theorem State.setModeOut_prevMode (m : ModeCode) : (s.setModeOut m).prevMode = s.prevMode := rfl
@[simp] theorem State.setModeOut_frame (m : ModeCode) : (s.setModeOut m).frame = s.frame := rfl
@[simp] theorem State.setModeOut_pending (m : ModeCode) : (s.setModeOut m).pending = s.pending := rfl
@[simp] theorem State.setModeOut_nextType (m : ModeCode) : (s.setModeOut m).nextType = s.nextType := rfl
@[simp] theorem State.setModeOut_bitIdx (m : ModeCode) : (s.setModeOut m).bitIdx = s.bitIdx := rfl
@[simp] theorem State.setModeOut_rep (m : ModeCode) : (s.setModeOut m).rep = s.rep := rfl
@[simp] theorem State.setModeOut_phase (m : ModeCode) : (s.setModeOut m).phase = s.phase := rfl
@[simp] theorem State.setModeOut_modeOut (m : ModeCode) : (s.setModeOut m).modeOut = m := rfl
@[simp] theorem State.setModeOut_tx (m : ModeCode) : (s.setModeOut m).tx = s.tx := rfl
@[simp] theorem State.setModeOut_request (m : ModeCode) : (s.setModeOut m).request = s.request := rfl
@[simp] theorem State.setModeOut_txCall (m : ModeCode) : (s.setModeOut m).txCall = s.txCall := rfl
@[simp] theorem State.setModeOut_resetDone (m : ModeCode) : (s.setModeOut m).resetDone = s.resetDone := rfl

@[simp] theorem State.setFrame_prevMode (f : FrameWord) : (s.setFrame f).prevMode = s.prevMode := rfl
@[simp] theorem State.setFrame_frame (f : FrameWord) : (s.setFrame f).frame = f := rfl
@[simp] theorem State.setFrame_pending (f : FrameWord) : (s.setFrame f).pending = s.pending := rfl
@[simp] theorem State.setFrame_nextType (f : FrameWord) : (s.setFrame f).nextType = s.nextType := rfl
@[simp] theorem State.setFrame_bitIdx (f : FrameWord) : (s.setFrame f).bitIdx = s.bitIdx := rfl
@[simp] theorem State.setFrame_rep (f : FrameWord) : (s.setFrame f).rep = s.rep := rfl
@[simp] theorem State.setFrame_phase (f : FrameWord) : (s.setFrame f).phase = s.phase := rfl
@[simp] theorem State.setFrame_modeOut (f : FrameWord) : (s.setFrame f).modeOut = s.modeOut := rfl
@[simp] theorem State.setFrame_tx (f : FrameWord) : (s.setFrame f).tx = s.tx := rfl
@[simp] theorem State.setFrame_request (f : FrameWord) : (s.setFrame f).request = s.request := rfl
@[simp] theorem State.setFrame_txCall (f : FrameWord) : (s.setFrame f).txCall = s.txCall := rfl
@[simp] theorem State.setFrame_resetDone (f : FrameWord) : (s.setFrame f).resetDone = s.resetDone := rfl

@[simp] theorem State.setPulse_prevMode (p : BitVec 3) (nt : PulseType) : (s.setPulse p nt).prevMode = s.prevMode := rfl
@[simp] theorem State.setPulse_frame (p : BitVec 3) (nt : PulseType) : (s.setPulse p nt).frame = s.frame := rfl
@[simp] theorem State.setPulse_pending (p : BitVec 3) (nt : PulseType) : (s.setPulse p nt).pending = p := rfl
@[simp] theorem State.setPulse_nextType (p : BitVec 3) (nt : PulseType) : (s.setPulse p nt).nextType = nt := rfl
@[simp] theorem State.setPulse_bitIdx (p : BitVec 3) (nt : PulseType) : (s.setPulse p nt).bitIdx = s.bitIdx := rfl
@[simp] theorem State.setPulse_rep (p : BitVec 3) (nt : PulseType) : (s.setPulse p nt).rep = s.rep := rfl
@[simp] theorem State.setPulse_phase (p : BitVec 3) (nt : PulseType) : (s.setPulse p nt).phase = s.phase := rfl
@[simp] theorem State.setPulse_modeOut (p : BitVec 3) (nt : PulseType) : (s.setPulse p nt).modeOut = s.modeOut := rfl
@[simp] theorem State.setPulse_tx (p : BitVec 3) (nt : PulseType) : (s.setPulse p nt).tx = s.tx := rfl
@[simp] theorem State.setPulse_request (p : BitVec 3) (nt : PulseType) : (s.setPulse p nt).request = s.request := rfl
@[simp] theorem State.setPulse_txCall (p : BitVec 3) (nt : PulseType) : (s.setPulse p nt).txCall = s.txCall := rfl
@[simp] theorem State.setPulse_resetDone (p : BitVec 3) (nt : PulseType) : (s.setPulse p nt).resetDone = s.resetDone := rfl

@[simp] theorem State.setSeq_prevMode (ph : Phase) (r : BitVec 2) (idx : BitVec 6) : (s.setSeq ph r idx).prevMode = s.prevMode := rfl
@[simp] theorem State.setSeq_frame (ph : Phase) (r : BitVec 2) (idx : BitVec 6) : (s.setSeq ph r idx).frame = s.frame := rfl
@[simp] theorem State.setSeq_pending (ph : Phase) (r : BitVec 2) (idx : BitVec 6) : (s.setSeq ph r idx).pending = s.pending := rfl
@[simp] theorem State.setSeq_nextType (ph : Phase) (r : BitVec 2) (idx : BitVec 6) : (s.setSeq ph r idx).nextType = s.nextType := rfl
@[simp] theorem State.setSeq_bitIdx (ph : Phase) (r : BitVec 2) (idx : BitVec 6) : (s.setSeq ph r idx).bitIdx = idx := rfl
@[simp] theorem State.setSeq_rep (ph : Phase) (r : BitVec 2) (idx : BitVec 6) : (s.setSeq ph r idx).rep = r := rfl
@[simp] theorem State.setSeq_phase (ph : Phase) (r : BitVec 2) (idx : BitVec 6) : (s.setSeq ph r idx).phase = ph := rfl
@[simp] theorem State.setSeq_modeOut (ph : Phase) (r : BitVec 2) (idx : BitVec 6) : (s.setSeq ph r idx).modeOut = s.modeOut := rfl
@[simp] theorem State.setSeq_tx (ph : Phase) (r : BitVec 2) (idx : BitVec 6) : (s.setSeq ph r idx).tx = s.tx := rfl
@[simp] theorem State.setSeq_request (ph : Phase) (r : BitVec 2) (idx : BitVec 6) : (s.setSeq ph r idx).request = s.request := rfl
@[simp] theorem State.setSeq_txCall (ph : Phase) (r : BitVec 2) (idx : BitVec 6) : (s.setSeq ph r idx).txCall = s.txCall := rfl
@[simp] theorem State.setSeq_resetDone (ph : Phase) (r : BitVec 2) (idx : BitVec 6) : (s.setSeq ph r idx).resetDone = s.resetDone := rfl

@[simp] theorem State.setTxCall_prevMode (c : Option TxWord) : (s.setTxCall c).prevMode = s.prevMode := rfl
@[simp] theorem State.setTxCall_frame (c : Option TxWord) : (s.setTxCall c).frame = s.frame := rfl
@[simp] theorem State.setTxCall_pending (c : Option TxWord) : (s.setTxCall c).pending = s.pending := rfl
@[simp] theorem State.setTxCall_nextType (c : Option TxWord) : (s.setTxCall c).nextType = s.nextType := rfl
@[simp] theorem State.setTxCall_bitIdx (c : Option TxWord) : (s.setTxCall c).bitIdx = s.bitIdx := rfl
@[simp] theorem State.setTxCall_rep (c : Option TxWord) : (s.setTxCall c).rep = s.rep := rfl
@[simp] theorem State.setTxCall_phase (c : Option TxWord) : (s.setTxCall c).phase = s.phase := rfl
@[simp] theorem State.setTxCall_modeOut (c : Option TxWord) : (s.setTxCall c).modeOut = s.modeOut := rfl
@[simp] theorem State.setTxCall_tx (c : Option TxWord) : (s.setTxCall c).tx = s.tx := rfl
@[simp] theorem State.setTxCall_txCall (c : Option TxWord) : (s.setTxCall c).txCall = c := rfl
@[simp] theorem State.setTxCall_resetDone (c : Option TxWord) : (s.setTxCall c).resetDone = s.resetDone := rfl
@[simp] theorem State.setTxCall_request (c : Option TxWord) : (s.setTxCall c).request = s.request := rfl

@[simp] theorem State.present_prevMode (p : Ports) : (s.present p).prevMode = s.prevMode := rfl
@[simp] theorem State.present_frame (p : Ports) : (s.present p).frame = s.frame := rfl
@[simp] theorem State.present_pending (p : Ports) : (s.present p).pending = s.pending := rfl
@[simp] theorem State.present_nextType (p : Ports) : (s.present p).nextType = s.nextType := rfl
@[simp] theorem State.present_bitIdx (p : Ports) : (s.present p).bitIdx = s.bitIdx := rfl
@[simp] theorem State.present_rep (p : Ports) : (s.present p).rep = s.rep := rfl
@[simp] theorem State.present_phase (p : Ports) : (s.present p).phase = s.phase := rfl
@[simp] theorem State.present_modeOut (p : Ports) : (s.present p).modeOut = s.modeOut := rfl
@[simp] theorem State.present_tx (p : Ports) : (s.present p).tx = s.tx := rfl
@[simp] theorem State.present_request (p : Ports) : (s.present p).request = .ports p := rfl
@[simp] theorem State.present_txCall (p : Ports) : (s.present p).txCall = s.txCall := rfl
@[simp] theorem State.present_resetDone (p : Ports) : (s.present p).resetDone = s.resetDone := rfl

/-- `advance()` touches the sequencer position only (R95). -/
@[simp] theorem State.advance_prevMode : s.advance.prevMode = s.prevMode := by unfold State.advance; split <;> rfl
@[simp] theorem State.advance_frame : s.advance.frame = s.frame := by unfold State.advance; split <;> rfl
@[simp] theorem State.advance_pending : s.advance.pending = s.pending := by unfold State.advance; split <;> rfl
@[simp] theorem State.advance_nextType : s.advance.nextType = s.nextType := by unfold State.advance; split <;> rfl
@[simp] theorem State.advance_rep : s.advance.rep = s.rep := by unfold State.advance; split <;> rfl
@[simp] theorem State.advance_modeOut : s.advance.modeOut = s.modeOut := by unfold State.advance; split <;> rfl
@[simp] theorem State.advance_tx : s.advance.tx = s.tx := by unfold State.advance; split <;> rfl
@[simp] theorem State.advance_request : s.advance.request = s.request := by unfold State.advance; split <;> rfl
@[simp] theorem State.advance_txCall : s.advance.txCall = s.txCall := by unfold State.advance; split <;> rfl
@[simp] theorem State.advance_resetDone : s.advance.resetDone = s.resetDone := by unfold State.advance; split <;> rfl

theorem State.advance_phase : s.advance.phase = if s.bitIdx = 0 then .trail else s.phase := by
  unfold State.advance; split <;> rfl

theorem State.advance_bitIdx : s.advance.bitIdx = if s.bitIdx = 0 then 0 else s.bitIdx - 1 := by
  unfold State.advance
  split
  · simpa using ‹_›
  · rfl

/-! A read of `PREV_MODE` (R127), and a call of `TxEmit` (R18). -/

/-- After a RESET a read is what it computes. -/
@[simp] theorem State.ifReset_of_resetDone {s : State} (h : s.resetDone = true) (s' : State) :
    s.ifReset s' = .next s' := by simp [State.ifReset, h]

/-- Before any RESET it is refused. -/
@[simp] theorem State.ifReset_of_not_resetDone {s : State} (h : s.resetDone = false) (s' : State) :
    s.ifReset s' = .refused .beforeReset := by simp [State.ifReset, h]

/-- All that a read can answer. -/
theorem State.ifReset_cases (s s' : State) :
    (s.resetDone = true ∧ s.ifReset s' = .next s') ∨ (s.resetDone = false ∧ s.ifReset s' = .refused .beforeReset) := by
  cases h : s.resetDone <;> simp [h]

/-- All that a call of `TxEmit` can do: append the event of the call in progress and end the call, or nothing. -/
theorem State.serveCall_cases (s : State) (w : TxWord) (e : TxEvent) :
    (s.txCall = some w ∧ e.word = w ∧ e.produced = true ∧
        s.serveCall w e = { s with tx := s.tx ++ [e], txCall := none }) ∨
      s.serveCall w e = s := by
  unfold State.serveCall
  split
  · rename_i h; exact .inl ⟨h.1, h.2.1, h.2.2, rfl⟩
  · exact .inr rfl

/-- With no call in progress nothing is appended. -/
@[simp] theorem State.serveCall_of_none {s : State} (h : s.txCall = none) (w : TxWord) (e : TxEvent) :
    s.serveCall w e = s := by simp [State.serveCall, h]

end Sys2Proof.Machine
end

