-- ==== Sys2Proof/Laws/PulseEncoder.lean ====
section
/-! SUPPORT. What the micro-steps, the sequencer and a transmission do, each said once. -/

namespace Sys2Proof.Machine

/-! One bit step. -/

/-- The bit step appends the events of the case table (R86), leaves its pending pulse, and advances. -/
theorem State.bitStep_eq (s : State) :
    s.bitStep =
      (({ s with tx := s.tx ++ (pulseStep s.pending.toNat s.nextType s.currentBit).1 } : State).setPulse 1
        (pulseStep s.pending.toNat s.nextType s.currentBit).2.2).advance := by
  unfold State.bitStep
  rcases s.nextType with _ | _ <;> rcases s.currentBit with _ | _ <;>
    simp [State.stepS0, State.stepS1, State.stepM0, State.stepM1, State.txEmit, State.setPulse, pulseStep]

/-- After any bit step one unit is pending (R91 (a)). -/
theorem pulseStep_pending (p : Nat) (nt : PulseType) (b : Bool) : (pulseStep p nt b).2.1 = 1 := by
  rcases nt with _ | _ <;> rcases b with _ | _ <;> rfl

/-- The type left pending is the type of the bit's second half: mark after a 1, space after a 0 (R82 to R85). -/
theorem pulseStep_nextType (p : Nat) (nt : PulseType) (b : Bool) :
    (pulseStep p nt b).2.2 = if b then .mark else .space := by
  rcases nt with _ | _ <;> rcases b with _ | _ <;> rfl

theorem bitRun_cons (b : Bool) (rest : List Bool) (p : Nat) (nt : PulseType) :
    bitRun (b :: rest) p nt =
      ((pulseStep p nt b).1 ++ (bitRun rest 1 (pulseStep p nt b).2.2).1,
        (bitRun rest 1 (pulseStep p nt b).2.2).2) := by
  simp [bitRun, pulseStep_pending]

/-! The sequencer. -/

theorem State.runToIdle_idle (k : Nat) (s : State) (h : s.phase = .idle) : s.runToIdle k = s := by
  cases k <;> simp [State.runToIdle, h]

theorem State.runToIdle_step (k : Nat) (s : State) (h : s.phase ≠ .idle) :
    s.runToIdle (k + 1) = s.microStep.runToIdle k := by
  simp [State.runToIdle, h]

/-- The state after a bit run: the events and the last pending pulse, at the trail (R86, R95). -/
def State.afterBits (s : State) (run : List TxEvent × Nat × PulseType) : State :=
  { s with tx := s.tx ++ run.1, pending := 1, nextType := run.2.2, bitIdx := 0, phase := .trail }

/-- The bit run of the sequencer is the pure bit run over the bits from `BITIDX` down to 0 (R86, R95). -/
theorem State.runToIdle_bits (n k : Nat) (s : State) (hn : n < 64) (hphase : s.phase = .bits)
    (hidx : s.bitIdx = BitVec.ofNat 6 n) :
    s.runToIdle (n + 1 + k) =
      (s.afterBits (bitRun (bitsBelow s.frame (n + 1)) s.pending.toNat s.nextType)).runToIdle k := by
  induction n generalizing s with
  | zero =>
    have hbit : s.currentBit = s.frame.getLsbD 0 := by simp [State.currentBit, hidx]
    rw [show 0 + 1 + k = k + 1 by omega, State.runToIdle_step k s (by simp [hphase])]
    simp [State.microStep, hphase, State.bitStep_eq, State.advance, hidx, State.afterBits, bitsBelow, bitRun,
      State.setPulse, State.setSeq, hbit]
  | succ n ih =>
    have hbit : s.currentBit = s.frame.getLsbD (n + 1) := by
      simp [State.currentBit, hidx, Nat.mod_eq_of_lt hn]
    have hne : BitVec.ofNat 6 (n + 1) ≠ 0#6 := by
      intro h
      have := congrArg BitVec.toNat h
      simp [Nat.mod_eq_of_lt hn] at this
    have hpred : BitVec.ofNat 6 (n + 1) - 1#6 = BitVec.ofNat 6 n := by
      apply BitVec.eq_of_toNat_eq
      simp
      omega
    rw [show n + 1 + 1 + k = (n + 1 + k) + 1 by omega, State.runToIdle_step _ s (by simp [hphase])]
    have hadv : s.microStep =
        { s with
          tx := s.tx ++ (pulseStep s.pending.toNat s.nextType s.currentBit).1
          pending := 1
          nextType := (pulseStep s.pending.toNat s.nextType s.currentBit).2.2
          bitIdx := BitVec.ofNat 6 n } := by
      simp [State.microStep, hphase, State.bitStep_eq, State.advance, hidx, hne, State.setPulse, State.setSeq, hpred]
    rw [hadv, ih _ (by omega) (by simp [hphase]) (by simp)]
    simp [State.afterBits, bitsBelow, bitRun_cons, hbit]

/-- The type left pending by a bit run is decided by its last bit. -/
theorem bitRun_bitsBelow_nextType (f : FrameWord) (n p : Nat) (nt : PulseType) :
    (bitRun (bitsBelow f (n + 1)) p nt).2.2 = if f.getLsbD 0 then .mark else .space := by
  induction n generalizing p nt with
  | zero => simp [bitsBelow, bitRun_cons, bitRun, pulseStep_nextType]
  | succ n ih => rw [bitsBelow, bitRun_cons]; exact ih _ _

theorem bitRun_bitsBelow_pending (f : FrameWord) (n p : Nat) (nt : PulseType) :
    (bitRun (bitsBelow f (n + 1)) p nt).2.1 = 1 := by
  induction n generalizing p nt with
  | zero => simp [bitsBelow, bitRun_cons, bitRun]
  | succ n ih => rw [bitsBelow, bitRun_cons]; exact ih _ _

theorem repetition_eq (f : FrameWord) :
    repetition f = .mark 3 :: ((bitRun (bitsBelow f 34) 3 .space).1 ++ [.space 1]) := by
  have h := bitRun_bitsBelow_pending f 33 3 .space
  simp only [repetition, bits, frameBits, Config.headerSpace, Config.headerMark, Config.bitCount] at *
  simp [h]

/-- The state after the repetition that ends with `REP` = `r` (R87, R88). -/
def State.afterRep (s : State) : State :=
  { s with
    tx := s.tx ++ repetition s.frame
    pending := 1
    nextType := if s.frame.getLsbD 0 then .mark else .space
    bitIdx := 0
    rep := if s.rep = 2 then 2 else s.rep + 1
    phase := if s.rep = 2 then .footer else .header }

/-- One repetition of the sequencer emits `rep(f)` (R88, R95). -/
theorem State.runToIdle_rep (k : Nat) (s : State) (hphase : s.phase = .header) :
    s.runToIdle (36 + k) = s.afterRep.runToIdle k := by
  rw [show 36 + k = (33 + 1 + (1 + k)) + 1 by omega, State.runToIdle_step _ s (by simp [hphase])]
  have hheader : s.microStep =
      { s with tx := s.tx ++ [.mark 3], pending := 3, nextType := .space, bitIdx := 33, phase := .bits } := by
    simp [State.microStep, hphase, State.header, State.txEmit, State.setPulse, State.setSeq, Config.headerMark,
      Config.headerSpace, Config.bitCount]
  rw [hheader, State.runToIdle_bits 33 (1 + k) _ (by omega) (by simp) (by simp),
    show 1 + k = k + 1 by omega, State.runToIdle_step _ _ (by simp [State.afterBits])]
  congr 1
  have hnt := bitRun_bitsBelow_nextType s.frame 33 3 .space
  by_cases hrep : s.rep = 2#2
  · simp [State.microStep, State.afterBits, State.trail, State.afterRep, hrep, Config.repeatCount, State.txEmit,
      State.setSeq, repetition_eq, hnt]
  · simp [State.microStep, State.afterBits, State.trail, State.afterRep, hrep, Config.repeatCount, State.txEmit,
      State.setSeq, repetition_eq, hnt]

/-- What a transmission does, whatever the state it starts in (R24, R90). -/
theorem State.transmit_eq (s : State) : s.transmit = s.transmitted := by
  have h109 : microStepsPerTransmission = 36 + (36 + (36 + (0 + 1))) := rfl
  unfold State.transmit
  rw [h109, State.runToIdle_rep _ _ (by simp [State.startTransmission]),
    State.runToIdle_rep _ _ (by simp [State.startTransmission, State.afterRep]),
    State.runToIdle_rep _ _ (by simp [State.startTransmission, State.afterRep]),
    State.runToIdle_step _ _ (by simp [State.startTransmission, State.afterRep]), State.runToIdle]
  simp [State.microStep, State.startTransmission, State.afterRep, State.footer, State.txEmit, State.setSeq,
    State.setTxCall, State.serveCall, TxEvent.produced, State.transmitted, events, pulses, Config.footerMark]

end Sys2Proof.Machine
end

