-- ==== Sys2Proof/Laws/Step.lean ====
section
/-! SUPPORT. What one step can do, said once. -/

namespace Sys2Proof.Machine

/-- If a step answers a next state, it decoded an instruction and executed it. -/
theorem step_next {s t : State} (h : step s = .next t) : ∃ i, decode s.fetch = .ok i ∧ exec i s = .next t := by
  unfold step at h
  split at h
  · cases h
  · exact ⟨_, ‹_›, h⟩

/-- If a step refuses, the word it fetched is no row of the table, or the instruction it decoded refuses. -/
theorem step_refused {s : State} {r : Refusal} (h : step s = .refused r) :
    (∃ why, decode s.fetch = .error why ∧ r = .undecodable why) ∨
      ∃ i, decode s.fetch = .ok i ∧ exec i s = .refused r := by
  unfold step at h
  split at h
  · cases h; exact .inl ⟨_, ‹_›, rfl⟩
  · exact .inr ⟨_, ‹_›, h⟩

/-- Only `OP.RESERVED` refuses, and before any RESET `TRK.READ` and `CONTROL` (R102, R110, R127). -/
theorem exec_refused {i : Instr} {s : State} {r : Refusal} (h : exec i s = .refused r) :
    ((∃ low, i = .opReserved low) ∧ r = .reservedOp) ∨
      ((i = .trkRead ∨ ∃ m temp, i = .control m temp) ∧ s.resetDone = false ∧ r = .beforeReset) := by
  have hread : ∀ s', s.ifReset s' = .refused r → s.resetDone = false ∧ r = .beforeReset := by
    intro s' hs
    rcases s.ifReset_cases s' with ⟨_, h'⟩ | ⟨h0, h'⟩ <;> rw [h'] at hs <;> cases hs
    exact ⟨h0, rfl⟩
  cases i with
  | opReserved low => cases h; exact .inl ⟨⟨low, rfl⟩, rfl⟩
  | trkRead => exact .inr ⟨.inl rfl, hread _ h⟩
  | control m temp => exact .inr ⟨.inr ⟨m, temp, rfl⟩, hread _ h⟩
  | _ => cases h

/-- A read that answers a next state was made after a RESET, and answers what it computes (R127). -/
theorem State.ifReset_next {s s' t : State} (h : s.ifReset s' = .next t) : s.resetDone = true ∧ t = s' := by
  rcases s.ifReset_cases s' with ⟨hr, h'⟩ | ⟨_, h'⟩ <;> rw [h'] at h <;> cases h
  exact ⟨hr, rfl⟩

/-- `CONTROL` after a RESET (R100, R127). -/
theorem exec_control {s : State} (m : ModeCode) (temp : TempWord) (h : s.resetDone = true) :
    exec (.control m temp) s = .next ((s.setFrame (build m temp s.prevMode)).setPrevMode m).transmitted := by
  simp [exec, execControl, h, State.transmit_eq]

/-- `PE.ENCODE` (R90). -/
theorem exec_peEncode (s : State) (f : FrameWord) : exec (.peEncode f) s = .next (s.setFrame f).transmitted := by
  simp [exec, execPeEncode, State.transmit_eq]

/-- `TRK.READ` after a RESET (R60, R127). -/
theorem exec_trkRead {s : State} (h : s.resetDone = true) : exec .trkRead s = .next (s.setModeOut s.prevMode) := by
  simp [exec, execTrkRead, h]

/-- All that an instruction which answers a next state can have done. -/
theorem exec_next {i : Instr} {s t : State} (h : exec i s = .next t) :
    (i = .nop ∧ t = s) ∨
    (∃ m temp, i = .control m temp ∧ s.resetDone = true ∧
      t = ((s.setFrame (build m temp s.prevMode)).setPrevMode m).transmitted) ∨
    (∃ m temp prev, i = .feBuild m temp prev ∧ t = s.setFrame (build m temp prev)) ∨
    (∃ f, (i = .peEncode f ∨ encode i = .f34 f) ∧ t = (s.setFrame f).transmitted) ∨
    (i = .trkRead ∧ s.resetDone = true ∧ t = s.setModeOut s.prevMode) ∨
    (∃ m, i = .trkUpdate m ∧ t = s.setPrevMode m) ∨
    (∃ m, i = .reset m ∧ t = { State.reset with prevMode := m, modeOut := m, request := s.request }) ∨
    ((∃ sel, encode i = .step2 sel) ∧ (t = s.stepS0 ∨ t = s.stepS1 ∨ t = s.stepM0 ∨ t = s.stepM1)) ∨
    ((∃ ph, encode i = .seq ph) ∧ (t = s.header ∨ t = s.trail ∨ t = s.footer)) ∨
    (∃ w e, encode i = .txw w ∧ t = s.serveCall w e) := by
  have transmits : ∀ f, (i = .peEncode f ∨ encode i = .f34 f) → t = (s.setFrame f).transmit →
      ∃ f, (i = .peEncode f ∨ encode i = .f34 f) ∧ t = (s.setFrame f).transmitted :=
    fun f hi ht => ⟨f, hi, ht.trans (State.transmit_eq _)⟩
  cases i with
  | control m temp =>
    obtain ⟨hr, ht⟩ := State.ifReset_next h
    exact .inr (.inl ⟨m, temp, rfl, hr, ht.trans (State.transmit_eq _)⟩)
  | trkRead =>
    obtain ⟨hr, ht⟩ := State.ifReset_next h
    simp [hr, ht]
  | opReserved => cases h
  | peEncode f => cases h; exact .inr (.inr (.inr (.inl (transmits f (.inl rfl) rfl))))
  | frameCool => cases h; exact .inr (.inr (.inr (.inl (transmits _ (.inr rfl) rfl))))
  | frameHeat => cases h; exact .inr (.inr (.inr (.inl (transmits _ (.inr rfl) rfl))))
  | frameAuto => cases h; exact .inr (.inr (.inr (.inl (transmits _ (.inr rfl) rfl))))
  | frameOff => cases h; exact .inr (.inr (.inr (.inl (transmits _ (.inr rfl) rfl))))
  | frameDry => cases h; exact .inr (.inr (.inr (.inl (transmits _ (.inr rfl) rfl))))
  | frameFan => cases h; exact .inr (.inr (.inr (.inl (transmits _ (.inr rfl) rfl))))
  | reset m => cases h; simp [encode, State.reset]
  | _ => cases h; simp [encode]

/-- Between operations the step runs what is presented. -/
theorem State.fetch_between {s : State} (h : betweenOperations s) : s.fetch = s.request.encoding := by
  simp [State.fetch, h.1, h.2]

/-- After the last micro-step the step runs the call of `TxEmit` that remains. -/
theorem State.fetch_txCall {s : State} {w : TxWord} (h : s.phase = .idle) (hw : s.txCall = some w) :
    s.fetch = .txw w := by
  simp [State.fetch, h, hw]

end Sys2Proof.Machine
end

