-- ==== Sys2Proof/Tests/Slice0.lean ====
section
/-! SUPPORT. The model's own tests: ill-formed terms, the decoding of a word written out for every row, one or two
steps per instruction against the vectors of spec/95_test_vectors.md, and a witness for the hypotheses of every
statement. -/

namespace Sys2Proof.Tests

open Sys2Proof.Machine

/-- The state an outcome answers, if it answers one. -/
def after : Host.Outcome State Fault Refusal → Option State
  | .next s => some s
  | _ => none

/-- The reason of a refusal. -/
def refusal : Host.Outcome State Fault Refusal → Option Refusal
  | .refused r => some r
  | _ => none

/-- A state between operations with the given tracker, port and latch. -/
def idleState (prev out : ModeCode) (f : FrameWord) : State :=
  { State.reset with prevMode := prev, modeOut := out, frame := f }

/-- A state inside a bit run of the frame of scenario A. -/
def bitState (idx : BitVec 6) (p : BitVec 3) (nt : PulseType) : State :=
  { State.reset with frame := 0x270480002, phase := .bits, bitIdx := idx, pending := p, nextType := nt,
                     txCall := sendCall }

/-- A state in which the operation in progress makes the call of `TxEmit` with the given word. -/
def callState (w : TxWord) : State := { State.reset with txCall := some w }

/-- A state before any RESET. -/
def freshState : State := { State.reset with resetDone := false }

/-- Ports that present an operation code. -/
def opPorts (op : BitVec 3) : Ports := { Ports.zero with op := op }

/-! Well-formedness: an ill-formed term for each check (R51, R56). -/

theorem test_wf_refuses_cool_temperature_0 : (Instr.frameCool 0 0).wf = false := by decide
theorem test_wf_refuses_heat_temperature_0 : (Instr.frameHeat 1 0).wf = false := by decide
theorem test_wf_refuses_auto_temperature_0 : (Instr.frameAuto 1 0).wf = false := by decide
theorem test_wf_refuses_off_temperature_0 : (Instr.frameOff 0).wf = false := by decide
theorem test_wf_refuses_dry_temperature_0 : (Instr.frameDry 0 0).wf = false := by decide
theorem test_wf_refuses_fan_temperature_0 : (Instr.frameFan 0 0).wf = false := by decide
theorem test_wf_refuses_begin_with_arg : (Instr.txBegin 1).wf = false := by decide
theorem test_wf_refuses_other_carrier : (Instr.txCarrier 38001).wf = false := by decide
theorem test_wf_refuses_space_of_0_units : (Instr.txSpace 0).wf = false := by decide
theorem test_wf_refuses_space_of_5_units : (Instr.txSpace 5).wf = false := by decide
theorem test_wf_refuses_mark_of_0_units : (Instr.txMark 0).wf = false := by decide
theorem test_wf_refuses_mark_of_5_units : (Instr.txMark 5).wf = false := by decide
theorem test_wf_refuses_send_with_arg : (Instr.txSend 0x8000).wf = false := by decide
theorem test_wf_accepts : (Instr.frameOff 15).wf = true ∧ (Instr.txCarrier 38000).wf = true ∧
    (Instr.txSpace 1).wf = true ∧ (Instr.txMark 4).wf = true := by decide

/-! Decoding: one word of every row, its bits written out from R41, R48, R50, R51 and R17. Operand ports that the
operation does not use hold ones. -/

/-- Operand ports with every bit 1. -/
def onePorts : Ports :=
  { rst := 0, initMode := 0b111, op := 0, modeIn := 0b111, tempIn := 0xFFFF, prevIn := 0b111, frameIn := 0x3FFFFFFFF }

theorem test_decode_nop : decode (.ports { onePorts with op := 0b000 }) = .ok .nop := by decide
theorem test_decode_control : decode (.ports { onePorts with op := 0b001, modeIn := 0b010, tempIn := 0x1080 }) =
    .ok (.control 0b010 0x1080) := by decide
theorem test_decode_feBuild :
    decode (.ports { onePorts with op := 0b010, modeIn := 0b001, tempIn := 0xD800, prevIn := 0b110 }) =
    .ok (.feBuild 0b001 0xD800 0b110) := by decide
theorem test_decode_peEncode : decode (.ports { onePorts with op := 0b011, frameIn := 0x2AAAAAAAA }) =
    .ok (.peEncode 0x2AAAAAAAA) := by decide
theorem test_decode_trkRead : decode (.ports { onePorts with op := 0b100 }) = .ok .trkRead := by decide
theorem test_decode_trkUpdate : decode (.ports { onePorts with op := 0b101, modeIn := 0b100 }) =
    .ok (.trkUpdate 0b100) := by decide
theorem test_decode_opReserved_6 : decode (.ports { onePorts with op := 0b110 }) = .ok (.opReserved 0) := by decide
theorem test_decode_opReserved_7 : decode (.ports { onePorts with op := 0b111 }) = .ok (.opReserved 1) := by decide
theorem test_decode_reset_over_reserved : decode (.ports { onePorts with rst := 1, op := 0b111, initMode := 0b011 }) =
    .ok (.reset 0b011) := by decide
theorem test_decode_peStepS0 : decode (.step2 0b00) = .ok .peStepS0 := by decide
theorem test_decode_peStepS1 : decode (.step2 0b01) = .ok .peStepS1 := by decide
theorem test_decode_peStepM0 : decode (.step2 0b10) = .ok .peStepM0 := by decide
theorem test_decode_peStepM1 : decode (.step2 0b11) = .ok .peStepM1 := by decide
theorem test_decode_peHeader : decode (.seq 0b001) = .ok .peHeader := by decide
theorem test_decode_peTrail : decode (.seq 0b011) = .ok .peTrail := by decide
theorem test_decode_peFooter : decode (.seq 0b100) = .ok .peFooter := by decide
theorem test_decode_frameCool : decode (.f34 0b1_001_11_00_0_0_0_1001_0_0000000000000000_1_0) =
    .ok (.frameCool 1 0b1001) := by decide
theorem test_decode_frameHeat : decode (.f34 0b0_010_11_00_0_0_0_0001_0_0000000000000000_1_0) =
    .ok (.frameHeat 0 0b0001) := by decide
theorem test_decode_frameAuto : decode (.f34 0b1_011_11_00_0_0_0_1111_0_0000000000000000_1_0) =
    .ok (.frameAuto 1 0b1111) := by decide
theorem test_decode_frameOff : decode (.f34 0b0_111_11_00_0_0_0_0101_0_0000000000000000_1_0) =
    .ok (.frameOff 0b0101) := by decide
theorem test_decode_frameDry : decode (.f34 0b0_100_11_00_0_0_0_1010_0_0000000000000000_1_0) =
    .ok (.frameDry 0 0b1010) := by decide
theorem test_decode_frameFan : decode (.f34 0b1_101_11_00_0_0_0_1010_0_0000000000000000_1_0) =
    .ok (.frameFan 1 0b1010) := by decide
theorem test_decode_txBegin : decode (.txw 0b000_0000000000000000) = .ok (.txBegin 0) := by decide
theorem test_decode_txCarrier : decode (.txw 0b001_1001010001110000) = .ok (.txCarrier 38000) := by decide
theorem test_decode_txSpace : decode (.txw 0b010_0000000000000100) = .ok (.txSpace 4) := by decide
theorem test_decode_txMark : decode (.txw 0b011_0000000000000011) = .ok (.txMark 3) := by decide
theorem test_decode_txSend : decode (.txw 0b100_0000000000000000) = .ok (.txSend 0) := by decide

theorem test_decode_rejects_off_with_power : decode (.f34 0b1_111_11_00_0_0_0_0101_0_0000000000000000_1_0) =
    .error (.noFrameKind 0x3F0280002) := by decide
theorem test_decode_rejects_reserved_bit : decode (.f34 0b0_001_11_00_0_0_1_0101_0_0000000000000000_1_0) =
    .error (.noFrameKind 0x070A80002) := by decide
theorem test_decode_rejects_event_kind_5 : decode (.txw 0b101_0000000000000001) = .error (.noEventKind 5) := by decide
theorem test_decode_rejects_phase_bits : decode (.seq 2) = .error (.noMicroStep 2) := by decide
theorem test_tableWord_control : decodeTableWord 8 0x1 = some (.control 0 0) := by decide
theorem test_tableWord_frame : decodeTableWord 40 0x1F0480002 = some (.frameOff 9) := by decide
theorem test_tableWord_event : decodeTableWord 24 0x20004 = some (.txSpace 4) := by decide

/-! The frame encoder: vectors S-A, F7, F10, F12, F16, F22 (95_test_vectors.md sections 1 and 2.3). -/

theorem test_build_SA : build Mode.cool 0x1800 Mode.off = 0x270480002 := by decide
theorem test_build_F10_tie : build Mode.auto 0x1080 Mode.auto = 0x0F0100002 := by decide
theorem test_build_F12_unrecognized : build 0b000 0x1400 Mode.off = 0x1F0280002 := by decide
theorem test_build_F16_unrecognized_prev : build Mode.cool 0x1400 0b000 = 0x070280002 := by decide
theorem test_build_F20_negative : build Mode.heat 0xD800 Mode.off = 0x2B0080002 := by decide
theorem test_tempField_rounds_down : tempField 0x1D7F = 14 := by decide
theorem test_tempField_half_up : tempField 0x1880 = 10 := by decide

/-! One instruction at a time. -/

/-- Vector T7. -/
theorem test_nop : after (exec .nop (idleState 0b010 0b111 0)) = some (idleState 0b010 0b111 0) := by decide
/-- Vector T3. -/
theorem test_trkRead : after (exec .trkRead (idleState 0b001 0b111 0)) = some (idleState 0b001 0b001 0) := by decide
/-- Vector T4: stored raw; `MODE_OUT` stays. -/
theorem test_trkUpdate : after (exec (.trkUpdate 0b110) (idleState 0b001 0b111 5)) =
    some (idleState 0b110 0b111 5) := by decide
/-- Vector T8: `FE.BUILD` uses `PREV_IN`, not `PREV_MODE`. -/
theorem test_feBuild : after (exec (.feBuild 0b001 0x1400 0b111) (idleState 0b010 0b111 0)) =
    some (idleState 0b010 0b111 0x270280002) := by decide
/-- Program P1, the first CONTROL: the frame is built from the old `PREV_MODE`. -/
theorem test_control_frame : (after (exec (.control 0b001 0x1800) (idleState 0b111 0b111 0))).map
    (fun s => (s.frame, s.prevMode, s.modeOut)) = some (0x270480002, 0b001, 0b111) := by decide +kernel
/-- Vector E-A: 184 events. -/
theorem test_control_events : (after (exec (.control 0b001 0x1800) (idleState 0b111 0b111 0))).map
    (fun s => (s.tx.length, s.tx.take 5, s.tx.drop 181)) =
    some (184, [.beginFrame, .carrier 38000, .mark 3, .space 4, .mark 2], [.space 1, .mark 4, .send]) := by
  decide +kernel
/-- Program P6: a frame with bit 0 = 1. -/
theorem test_peEncode_odd : (after (exec (.peEncode 1) (idleState 0b011 0b011 0))).map
    (fun s => (s.tx.length, s.nextType, s.pending, s.prevMode)) = some (211, .mark, 1, 0b011) := by decide +kernel
/-- Vector R-Y `#0x000000001`: the repetition ends `M1 S2 S1`. -/
theorem test_peEncode_odd_tail : (after (exec (.peEncode 1) (idleState 0b011 0b011 0))).map
    (fun s => s.tx.drop 206) = some [.mark 1, .space 2, .space 1, .mark 4, .send] := by decide +kernel
theorem test_opReserved : refusal (exec (.opReserved 1) State.reset) = some .reservedOp := by decide
/-- Vector T1. -/
theorem test_reset : after (exec (.reset 0b111) (bitState 7 3 .mark)) = some (idleState 0b111 0b111 0) := by decide
/-- Vector ST8, with `advance()` at an inner bit. -/
theorem test_peStepM0 : (after (exec .peStepM0 (bitState 5 3 .mark))).map
    (fun s => (s.tx, s.pending, s.nextType, s.bitIdx, s.phase)) =
    some ([.mark 4], 1, .space, 4, .bits) := by decide
/-- Vector ST7, with `advance()` at bit 0. -/
theorem test_peStepM1 : (after (exec .peStepM1 (bitState 0 3 .mark))).map
    (fun s => (s.tx, s.pending, s.nextType, s.bitIdx, s.phase)) =
    some ([.mark 3, .space 1], 1, .mark, 0, .trail) := by decide
/-- Vector ST1. -/
theorem test_peStepS1 : (after (exec .peStepS1 (bitState 33 3 .space))).map
    (fun s => (s.tx, s.pending, s.nextType, s.bitIdx, s.phase)) =
    some ([.space 4], 1, .mark, 32, .bits) := by decide
/-- Vector ST2. -/
theorem test_peStepS0 : (after (exec .peStepS0 (bitState 1 3 .space))).map
    (fun s => (s.tx, s.pending, s.nextType, s.bitIdx, s.phase)) =
    some ([.space 3, .mark 1], 1, .space, 0, .bits) := by decide
theorem test_peHeader : (after (exec .peHeader (bitState 0 1 .mark))).map
    (fun s => (s.tx, s.pending, s.nextType, s.bitIdx, s.phase)) =
    some ([.mark 3], 3, .space, 33, .bits) := by decide
theorem test_peTrail_next_repetition : (after (exec .peTrail { bitState 0 1 .mark with rep := 1 })).map
    (fun s => (s.tx, s.rep, s.phase)) = some ([.space 1], 2, .header) := by decide
theorem test_peTrail_footer : (after (exec .peTrail { bitState 0 1 .mark with rep := 2 })).map
    (fun s => (s.tx, s.rep, s.phase)) = some ([.space 1], 2, .footer) := by decide
theorem test_peFooter : (after (exec .peFooter (bitState 0 1 .mark))).map
    (fun s => (s.tx, s.phase)) = some ([.mark 4], .idle) := by decide
theorem test_step_footer : (after (step { bitState 0 1 .mark with phase := .footer })).map
    (fun s => (s.tx, s.phase)) = some ([.mark 4], .idle) := by decide
theorem test_step_sends_after_footer : (after (step { bitState 0 1 .mark with phase := .idle })).map
    (fun s => (s.tx, s.txCall)) = some ([.send], none) := by decide
/-- R127: refused before any RESET, also after TRK.UPDATE; served after it. -/
theorem test_control_before_reset : refusal (exec (.control 0b001 0x1800) freshState) = some .beforeReset := by decide
theorem test_trkRead_before_reset : refusal (runOps [opPorts 0b101, opPorts 0b100] freshState) = some .beforeReset := by
  decide
theorem test_trkRead_after_reset : (after (runOps [{ opPorts 0 with rst := 1, initMode := 0b010 }, opPorts 0b100]
    freshState)).map (fun s => s.modeOut) = some 0b010 := by decide
theorem test_step_selects_S1 : (after (step (bitState 33 3 .space))).map
    (fun s => s.tx) = some [.space 4] := by decide
/-- The frame rows: FRAME.HEAT of vector F7, 184 events. -/
theorem test_frameHeat : (after (exec (.frameHeat 1 7) State.reset)).map
    (fun s => (s.frame, s.tx.length)) = some (0x2B0380002, 184) := by decide +kernel
theorem test_frameDry : (after (exec (.frameDry 0 10) State.reset)).map
    (fun s => (s.frame, s.phase)) = some (0x130500002, .idle) := by decide +kernel
/-- The event words of 95_test_vectors.md section 2.4. -/
theorem test_event_words : [TxEvent.beginFrame, .carrier 38000, .space 4, .mark 1, .send].map TxEvent.word =
    [0x00000, 0x19470, 0x20004, 0x30001, 0x40000] := by decide
theorem test_txCarrier : (after (exec (.txCarrier 0x9470) (callState 0x19470))).map (fun s => (s.tx, s.txCall)) =
    some ([.carrier 38000], none) := by decide
/-- R18: no event is appended without a call of `TxEmit`. -/
theorem test_txMark_without_call : after (exec (.txMark 3) State.reset) = some State.reset := by decide
/-- R51: `Mark(0)` is no event. -/
theorem test_txMark_of_0_units : after (exec (.txMark 0) (callState 0x30000)) = some (callState 0x30000) := by decide
theorem test_withFetchWord_event : (after (step (State.reset.withFetchWord 24 0x30003))).map (fun s => s.tx) =
    some [.mark 3] := by decide
/-- Vector R-A: one repetition of the frame of scenario A. -/
theorem test_repetition_RA : (repetition 0x270480002).take 12 =
    [.mark 3, .space 4, .mark 2, .space 1, .mark 1, .space 2, .mark 1, .space 1, .mark 1, .space 1, .mark 2,
      .space 1] := by decide +kernel
/-- Program P4, its first four lines. -/
theorem test_program_P4_start : (after (runLines [.reset .off, .trkUpdate .heat, .trkUpdate .off, .trkRead,
      .feBuild .heat (.celsius256 (22 * 256)) .modeOut] State.reset)).map
    (fun s => (s.prevMode, s.frame, s.modeOut)) = some (0b111, 0x2B0380002, 0b111) := by decide

/-! Witnesses: for every statement with hypotheses, values that meet them together, at the ends of their ranges. -/

theorem witness_ports_of_each_code :
    (opPorts 0b000).rst = 0 ∧ (opPorts 0b000).op = 0b000 ∧ (opPorts 0b001).op = 0b001 ∧
    (opPorts 0b010).op = 0b010 ∧ (opPorts 0b011).op = 0b011 ∧ (opPorts 0b100).op = 0b100 ∧
    (opPorts 0b101).op = 0b101 ∧ (opPorts 0b110).rst = 0 ∧ (opPorts 0b110).op = 0b110 ∧
    (opPorts 0b111).op = 0b111 ∧ (State.reset.phase = .idle ∧ State.reset.txCall = none) ∧
    State.reset.resetDone = true ∧ freshState.resetDone = false ∧
    ({ Ports.zero with rst := 1 } : Ports).rst = 1 := by decide

theorem witness_unrecognized : recognized 0b000 = false ∧ recognized 0b110 = false ∧
    (0b110 : ModeCode) ≠ 0b001 ∧ (0b110 : ModeCode) ≠ 0b010 ∧ (0b110 : ModeCode) ≠ 0b011 ∧
    (0b111 : ModeCode) ≠ 0b001 ∧ (0b111 : ModeCode) ≠ 0b010 ∧ (0b111 : ModeCode) ≠ 0b011 := by decide

theorem witness_temperatures : (15.99609375 : ℚ) < 16 ∧ (30 : ℚ) ≤ 30 ∧ (16 : ℤ) ≤ 16 ∧ (16 : ℤ) < 30 ∧
    (16 : ℤ) ≤ 29 ∧ (29 : ℤ) < 30 := by norm_num

theorem witness_build_classes :
    ((0b100 : ModeCode) = Mode.off ↔ (0b000 : ModeCode) = Mode.off) ∧
    ((0b111 : ModeCode) ∉ [Mode.cool, Mode.heat, Mode.auto] ∧ (0b101 : ModeCode) ∉ [Mode.cool, Mode.heat, Mode.auto]) ∧
    tempField 0x8000 = tempField 0x107F := by decide

theorem witness_container : (34 ≤ 34) ∧ (34 ≤ 63) ∧ (34 ≤ 64) ∧
    ∀ i < 34, (0x270480002 : BitVec 64).getLsbD i = (0xFF00000270480002 : BitVec 64).getLsbD i := by decide

theorem witness_header : ({ State.reset with phase := .header } : State).phase = .header := rfl

theorem witness_stepS1 : (bitState 33 3 .space).phase = .bits ∧ (bitState 33 3 .space).nextType = .space ∧
    (bitState 33 3 .space).currentBit = true := by decide

theorem witness_stepS0 : (bitState 31 1 .space).phase = .bits ∧ (bitState 31 1 .space).nextType = .space ∧
    (bitState 31 1 .space).currentBit = false := by decide

theorem witness_stepM1 : (bitState 29 1 .mark).phase = .bits ∧ (bitState 29 1 .mark).nextType = .mark ∧
    (bitState 29 1 .mark).currentBit = true := by decide

theorem witness_stepM0 : (bitState 0 1 .mark).phase = .bits ∧ (bitState 0 1 .mark).nextType = .mark ∧
    (bitState 0 1 .mark).currentBit = false := by decide

theorem witness_invariant_first_bit : seqInvariant (bitState 33 3 .space) ∧ (bitState 33 3 .space).bitIdx = 33 := by
  refine ⟨⟨rfl, by decide, .inl ⟨rfl, rfl, rfl⟩⟩, rfl⟩

theorem witness_invariant_inner_bits :
    (seqInvariant (bitState 32 1 .mark) ∧ (bitState 32 1 .mark).nextType = .mark) ∧
      (seqInvariant (bitState 0 1 .mark) ∧ (bitState 0 1 .mark).nextType = .mark) := by
  refine ⟨⟨⟨rfl, by decide, .inr ⟨by decide, rfl, by decide⟩⟩, rfl⟩,
    ⟨rfl, by decide, .inr ⟨by decide, rfl, by decide⟩⟩, rfl⟩

theorem witness_trail :
    seqInvariant { bitState 0 1 .space with phase := .trail, rep := 2 } ∧
    ({ bitState 0 1 .space with phase := .trail, rep := 2 } : State).rep = 2 ∧
    ({ bitState 0 1 .space with phase := .trail, rep := 1 } : State).rep ≠ 2 ∧
    (0x270480002 : FrameWord).getLsbD 0 = false := by
  refine ⟨⟨rfl, by decide, rfl, rfl, by decide⟩, rfl, by decide, by decide⟩

theorem witness_footer : ({ bitState 0 1 .space with phase := .footer } : State).phase = .footer := rfl

theorem witness_microsteps : (({ bitState 0 1 .mark with phase := .header } : State).phase = .header ∧
    ({ bitState 0 1 .mark with phase := .header } : State).rep = 0) ∧ 0 < 109 ∧ 108 < 109 ∧ 1 ≤ 1 % 36 ∧ 1 % 36 ≤ 34 ∧ 1 ≤ 106 % 36 ∧ 106 % 36 ≤ 34 := by decide

theorem witness_even_and_odd_frames : (0x000000000 : FrameWord).getLsbD 0 = false ∧
    (0x3FFFFFFFE : FrameWord).getLsbD 0 = false ∧ (0x000000001 : FrameWord).getLsbD 0 = true ∧
    (0x3FFFFFFFF : FrameWord).getLsbD 0 = true := by decide

theorem witness_buildable : Buildable 0x270480002 := ⟨Mode.cool, 0x1800, Mode.off, by decide⟩

theorem witness_control_from_off : (idleState Mode.off Mode.off 0).prevMode = Mode.off ∧
    (idleState Mode.off Mode.off 0).phase = .idle ∧ (idleState Mode.off Mode.off 0).txCall = none ∧
    (idleState Mode.off Mode.off 0).resetDone = true := by decide

theorem witness_inside_transmission : (bitState 33 3 .space).phase ≠ .idle ∧
    ({ bitState 33 3 .space with phase := .idle } : State).txCall = sendCall := by decide

theorem witness_event_calls : (callState 0x00000).txCall = some 0x00000 ∧ (callState 0x19470).txCall = some 0x19470 ∧
    (callState 0x20001).txCall = some (txWord 0b010 1) ∧ (callState 0x20004).txCall = some (txWord 0b010 4) ∧
    (callState 0x30001).txCall = some (txWord 0b011 1) ∧ (callState 0x30004).txCall = some (txWord 0b011 4) ∧
    (callState 0x40000).txCall = some 0x40000 ∧
    (encode (.txMark 3) = .txw 0x30003 ∧ State.reset.txCall ≠ some 0x30003) ∧
    (encode (.txMark 0) = .txw 0x30000 ∧ (Instr.txMark 0).wf = false) := by decide

/-- Two presentations of FE.BUILD that differ on the ports it does not use. -/
theorem witness_unused_ports :
    let p : Ports := { onePorts with op := 0b010 }
    let q : Ports := { onePorts with op := 0b010, initMode := 0, frameIn := 0 }
    p ≠ q ∧ p.rst = q.rst ∧ p.op = q.op ∧ p.rst ≠ 1 ∧ p.modeIn = q.modeIn ∧ p.tempIn = q.tempIn ∧
      p.prevIn = q.prevIn := by decide

theorem witness_step_decodes :
    decode State.reset.fetch = .ok .nop ∧ (State.reset.phase = .idle ∧ State.reset.txCall = none) ∧
    ({ bitState 0 1 .space with phase := .trail } : State).phase = .trail ∧
    (({ bitState 0 1 .space with phase := .idle } : State).phase = .idle ∧
      ({ bitState 0 1 .space with phase := .idle } : State).txCall = sendCall) ∧
    decode (callState 0x50000).fetch = .error (.noEventKind 5) ∧
    decode ({ State.reset with request := .frameWord 0 } : State).fetch = .error (.noFrameKind 0) := by decide

theorem witness_tableWords : decodeTableWord 8 0x7 = some (.opReserved 1) ∧
    decodeTableWord 40 0x070000002 = some (.frameCool 0 0) ∧ decodeTableWord 24 0x40000 = some (.txSend 0) ∧
    decodeTableWord 2 0x3 = some .peStepM1 ∧ decodeTableWord 1 0x1 = some (.reset 0) := by decide

theorem witness_exec_next : after (exec (.trkUpdate 0b010) State.reset) ≠ none ∧
    after (exec (.reset 0b010) State.reset) ≠ none ∧ after (exec .nop State.reset) ≠ none := by decide

/-- Two states between operations that differ in the working registers only. -/
theorem witness_working_registers :
    let s := State.reset
    let s' := { State.reset with pending := 1, nextType := .mark, bitIdx := 33, rep := 2 }
    s ≠ s' ∧ sameVisible s s' := by
  refine ⟨by decide, rfl, rfl, rfl, rfl, rfl, rfl, ⟨rfl, rfl⟩, rfl, rfl⟩

theorem witness_invariants_and_step : (seqInvariant State.reset ∧ after (step State.reset) ≠ none) ∧
    (streamInvariant State.reset ∧ after (step State.reset) ≠ none) ∧
    after (step (bitState 33 3 .space)) ≠ none := by
  refine ⟨⟨⟨.inl rfl, .inl rfl, rfl, by decide⟩, by decide⟩, ⟨⟨⟨rfl, rfl⟩, [], rfl⟩, by decide⟩, by decide⟩

theorem witness_run : betweenOperations State.reset ∧ ({ Ports.zero with rst := 1 } : Ports).rst = 1 ∧
    (∀ q ∈ [opPorts 0b001, opPorts 0b101, opPorts 0b000], servable q) ∧
    servable { onePorts with rst := 1, op := 0b111 } := by
  refine ⟨⟨rfl, rfl⟩, rfl, ?_, .inl rfl⟩
  intro q hq
  simp only [List.mem_cons, List.not_mem_nil, or_false] at hq
  rcases hq with rfl | rfl | rfl <;> exact .inr (by decide)

/-- Operations that may stand after TRK.READ while `MODE_OUT` holds, and between two reads that show the same. -/
theorem witness_reads : (betweenOperations State.reset ∧ State.reset.resetDone = true) ∧
    (∀ q ∈ [opPorts 0b001, opPorts 0b101, opPorts 0b011], q.rst = 0 ∧ servable q ∧ q.op ≠ 0b100) ∧
    (∀ q ∈ [opPorts 0b100, opPorts 0b010], q.rst = 0 ∧ servable q ∧ q.op ≠ 0b101 ∧ q.op ≠ 0b001) := by
  refine ⟨⟨⟨rfl, rfl⟩, rfl⟩, ?_, ?_⟩ <;> intro q hq <;> simp only [List.mem_cons, List.not_mem_nil, or_false] at hq
  · rcases hq with rfl | rfl | rfl <;> exact ⟨rfl, .inr (by decide), by decide⟩
  · rcases hq with rfl | rfl <;> exact ⟨rfl, .inr (by decide), by decide, by decide⟩

theorem witness_latest_mode :
    decodePorts (opPorts 0b101) = .trkUpdate 0 ∧ decodePorts (opPorts 0b001) = .control 0 0 ∧
    decodePorts { Ports.zero with rst := 1 } = .reset 0 ∧
    (∀ q ∈ [opPorts 0b011, opPorts 0b100], servable q ∧ q.rst = 0 ∧ q.op ≠ 0b101 ∧ q.op ≠ 0b001) := by
  refine ⟨by decide, by decide, by decide, ?_⟩
  intro q hq
  simp only [List.mem_cons, List.not_mem_nil, or_false] at hq
  rcases hq with rfl | rfl <;> exact ⟨.inr (by decide), by decide, by decide, by decide⟩

theorem witness_decoded_words : decode (.ports onePorts) = .ok .nop ∧ decode (.step2 0) = .ok .peStepS0 ∧
    encode (.frameOff 15) = .f34 0x1F0780002 ∧ encode (.txSpace 1) = .txw 0x20001 ∧
    encode (.txMark 4) = .txw 0x30004 ∧ (Instr.txSpace 1).wf = true ∧ (Instr.txMark 4).wf = true := by decide

end Sys2Proof.Tests
end

