-- ==== Sys2Proof/Proofs/EventRows.lean ====
section
/-! The event rows as calls of `TxEmit` (R18, R51; log entry 8), and a transmission run step by step (R34, R90; log
entry 9). -/

namespace Sys2Proof.Machine

/-! A call of `TxEmit`. -/

/-- The call that the operation in progress makes appends its event and is over (R18). -/
theorem State.serveCall_of_call {s : State} {w : TxWord} {e : TxEvent} (hcall : s.txCall = some w)
    (hword : e.word = w) (hproduced : e.produced = true) :
    s.serveCall w e = { s with tx := s.tx ++ [e], txCall := none } := by
  simp [State.serveCall, hcall, hword, hproduced, State.txEmit, State.setTxCall]

/-- Event words of one kind differ in their args (R51). -/
theorem txWord_eq_txWord_iff (k : BitVec 3) (a b : BitVec 16) : txWord k a = txWord k b ↔ a = b := by
  refine ⟨fun h => ?_, fun h => h ▸ rfl⟩
  simpa using congrArg txArg h

/-- An event row is the call of `TxEmit` with its word; the event of that call is one that the block hands over under
this word exactly when the row is well formed (R51). -/
theorem exec_eventRow {i : Instr} {w : TxWord} (hi : encode i = .txw w) (s : State) :
    ∃ e : TxEvent, exec i s = .next (s.serveCall w e) ∧ (i.wf = true ↔ e.word = w ∧ e.produced = true) := by
  cases i with
  | txBegin arg =>
    cases hi
    exact ⟨.beginFrame, rfl, by
      simp [Instr.wf, TxEvent.word, TxEvent.produced, txWord_eq_txWord_iff, eq_comm (a := 0#16)]⟩
  | txCarrier hz =>
    cases hi
    exact ⟨.carrier hz.toNat, rfl, by simp [Instr.wf, TxEvent.word, TxEvent.produced]⟩
  | txSpace n =>
    cases hi
    exact ⟨.space n.toNat, rfl, by simp [Instr.wf, unitsWf, TxEvent.word, TxEvent.produced]⟩
  | txMark n =>
    cases hi
    exact ⟨.mark n.toNat, rfl, by simp [Instr.wf, unitsWf, TxEvent.word, TxEvent.produced]⟩
  | txSend arg =>
    cases hi
    exact ⟨.send, rfl, by
      simp [Instr.wf, TxEvent.word, TxEvent.produced, txWord_eq_txWord_iff, eq_comm (a := 0#16)]⟩
  | _ => cases hi

/-- A row whose call no operation makes, or whose word is no event of R51, changes nothing (log entry 8). -/
theorem exec_eventRow_of_no_call {i : Instr} {w : TxWord} {s : State} (hi : encode i = .txw w)
    (h : s.txCall ≠ some w ∨ i.wf = false) : exec i s = .next s := by
  obtain ⟨e, hexec, hwf⟩ := exec_eventRow hi s
  rcases s.serveCall_cases w e with ⟨hcall, hword, hproduced, _⟩ | hself
  · rcases h with hne | hill
    · exact absurd hcall hne
    · simp [hwf.mpr ⟨hword, hproduced⟩] at hill
  · rw [hexec, hself]

/-! A transmission, one step at a time. -/

/-- Inside a transmission a step is the micro-step at the sequencer's position (R50, R95). -/
theorem step_of_not_idle {s : State} (h : s.phase ≠ .idle) : step s = .next s.microStep := by
  cases hphase : s.phase with
  | idle => exact absurd hphase h
  | header => simp [step, State.fetch, State.microStep, hphase, Phase.code, decode, decodeSeq, exec, execPeHeader]
  | trail => simp [step, State.fetch, State.microStep, hphase, Phase.code, decode, decodeSeq, exec, execPeTrail]
  | footer => simp [step, State.fetch, State.microStep, hphase, Phase.code, decode, decodeSeq, exec, execPeFooter]
  | bits =>
    have hselected : exec (decodeStep2 s.stepSelector) s = .next s.bitStep := by
      unfold State.stepSelector State.bitStep
      rcases s.nextType with _ | _ <;> rcases s.currentBit with _ | _ <;> rfl
    simpa [step, State.fetch, State.microStep, hphase, decode] using hselected

/-- After the last micro-step a step performs the `Send` that remains (R90). -/
theorem step_of_sendCall {s : State} (hphase : s.phase = .idle) (hcall : s.txCall = sendCall) :
    step s = .next (s.serveCall TxEvent.send.word .send) := by
  have hdecode : decode (.txw TxEvent.send.word) = .ok (.txSend 0) := by decide
  simp only [step, State.fetch_txCall hphase hcall, hdecode]
  rfl

theorem run_succ_of_step {M : Host.Core} {s t : M.State} (k : Nat) (h : M.step s = .next t) :
    M.run (k + 1) s = M.run k t := by
  rw [Host.Core.run, h]

theorem run_succ_of_not_idle {s : State} (k : Nat) (h : s.phase ≠ .idle) :
    Sys2Proof.core.run (k + 1) s = Sys2Proof.core.run k s.microStep :=
  run_succ_of_step (M := Sys2Proof.core) k (step_of_not_idle h)

/-- Where the first `n` micro-steps leave the sequencer inside the transmission, `n + 1` steps run `n + 1`
micro-steps. -/
theorem run_eq_runToIdle (n k : Nat) (s : State) (h : (s.runToIdle n).phase ≠ .idle) :
    Sys2Proof.core.run (n + 1 + k) s = Sys2Proof.core.run k (s.runToIdle (n + 1)) := by
  induction n generalizing s with
  | zero =>
    have hs : s.phase ≠ .idle := h
    rw [Nat.add_comm (0 + 1) k, run_succ_of_not_idle k hs, State.runToIdle_step 0 s hs]
    rfl
  | succ n ih =>
    have hs : s.phase ≠ .idle := fun hidle => h (by rw [State.runToIdle_idle _ s hidle, hidle])
    rw [State.runToIdle_step n s hs] at h
    rw [Nat.add_right_comm, run_succ_of_not_idle _ hs, ih _ h, State.runToIdle_step (n + 1) s hs]

/-- After three repetitions, 108 micro-steps, the sequencer is at the footer (R87, R95). -/
theorem State.startTransmission_runToIdle (k : Nat) (s : State) :
    s.startTransmission.runToIdle (108 + k) = s.startTransmission.afterRep.afterRep.afterRep.runToIdle k := by
  rw [show 108 + k = 36 + (36 + (36 + k)) by omega,
    State.runToIdle_rep _ _ (by simp [State.startTransmission]),
    State.runToIdle_rep _ _ (by simp [State.startTransmission, State.afterRep]),
    State.runToIdle_rep _ _ (by simp [State.startTransmission, State.afterRep])]

theorem State.startTransmission_afterReps_phase (s : State) :
    s.startTransmission.afterRep.afterRep.afterRep.phase = .footer := by
  simp [State.startTransmission, State.afterRep]

/-- When the sequencer is idle again, after 109 micro-steps, the `Send` remains (R90, R95). -/
theorem State.startTransmission_runToIdle_109 (s : State) :
    (s.startTransmission.runToIdle 109).phase = .idle ∧ (s.startTransmission.runToIdle 109).txCall = sendCall := by
  have hfooter := s.startTransmission_afterReps_phase
  rw [s.startTransmission_runToIdle 1, State.runToIdle_step 0 _ (by simp [hfooter])]
  simp only [State.runToIdle, State.microStep, hfooter]
  exact ⟨rfl, rfl⟩

/-- Step by step a transmission does what the atomic one does: 109 micro-steps, then its `Send` (R34, R90). -/
theorem run_startTransmission (s : State) : Sys2Proof.core.run 110 s.startTransmission = .next s.transmitted := by
  obtain ⟨hidle, hcall⟩ := s.startTransmission_runToIdle_109
  have hbusy : (s.startTransmission.runToIdle 108).phase ≠ .idle := by
    rw [s.startTransmission_runToIdle 0, State.runToIdle, s.startTransmission_afterReps_phase]
    decide
  calc Sys2Proof.core.run 110 s.startTransmission
      = Sys2Proof.core.run 1 (s.startTransmission.runToIdle 109) := run_eq_runToIdle 108 1 _ hbusy
    _ = .next s.transmit := run_succ_of_step (M := Sys2Proof.core) 0 (step_of_sendCall hidle hcall)
    _ = .next s.transmitted := by rw [s.transmit_eq]

/-- Settles O60: each well-formed row is the call `State.serveCall_of_call` performs, every other case is
`exec_eventRow_of_no_call`, and the step-by-step run is `run_startTransmission`. -/
theorem eventRowsEmit : Obligations.EventRowsEmit := by
  refine ⟨fun s h => ?begin, fun s h => ?carrier, fun s n h1 h4 h => ?space, fun s n h1 h4 h => ?mark,
    fun s h => ?send, fun s i w hi h => exec_eventRow_of_no_call hi h, run_startTransmission⟩
  case begin => exact congrArg _ (State.serveCall_of_call (e := .beginFrame) h (by decide) rfl)
  case carrier => exact congrArg _ (State.serveCall_of_call (e := .carrier 38000) h (by decide) rfl)
  case space =>
    exact congrArg _ (State.serveCall_of_call (e := .space n.toNat) h (by simp [TxEvent.word])
      (by simp [TxEvent.produced, h1, h4]))
  case mark =>
    exact congrArg _ (State.serveCall_of_call (e := .mark n.toNat) h (by simp [TxEvent.word])
      (by simp [TxEvent.produced, h1, h4]))
  case send => exact congrArg _ (State.serveCall_of_call (e := .send) h (by decide) rfl)

end Sys2Proof.Machine
end

