-- ==== Sys2Proof/Proofs/InstructionRules.lean ====
section
/-! Rules that the statements about the registers use: what the ports decode to, what a request can run, and what the
transmission and the micro-steps leave unchanged. -/

namespace Sys2Proof.Machine

/-! What the ports ask for (R48, R126). -/

/-- The operation of the ports, by `RST` and `OP`. -/
theorem decodePorts_cases (p : Ports) :
    (p.rst = 1 ∧ decodePorts p = .reset p.initMode) ∨
    (p.rst = 0 ∧
      ((p.op = 0b000 ∧ decodePorts p = .nop) ∨
      (p.op = 0b001 ∧ decodePorts p = .control p.modeIn p.tempIn) ∨
      (p.op = 0b010 ∧ decodePorts p = .feBuild p.modeIn p.tempIn p.prevIn) ∨
      (p.op = 0b011 ∧ decodePorts p = .peEncode p.frameIn) ∨
      (p.op = 0b100 ∧ decodePorts p = .trkRead) ∨
      (p.op = 0b101 ∧ decodePorts p = .trkUpdate p.modeIn) ∨
      ((p.op = 0b110 ∨ p.op = 0b111) ∧ decodePorts p = .opReserved (p.op.extractLsb' 0 1)))) := by
  have hrst : p.rst = 0 ∨ p.rst = 1 := by bv_omega
  have hop : p.op = 0b000 ∨ p.op = 0b001 ∨ p.op = 0b010 ∨ p.op = 0b011 ∨ p.op = 0b100 ∨ p.op = 0b101 ∨
      p.op = 0b110 ∨ p.op = 0b111 := by bv_omega
  rcases hrst with hrst | hrst
  · rcases hop with h | h | h | h | h | h | h | h <;> simp [decodePorts, hrst, h]
  · simp [decodePorts, hrst]

/-- Ports that agree on `RST`, on `OP` and on the operand ports that the operation uses ask for the same (R19). -/
theorem decodePorts_congr {p q : Ports} (hrst : p.rst = q.rst) (hop : p.op = q.op)
    (hinit : p.rst = 1 → p.initMode = q.initMode)
    (hmode : p.op = 0b001 ∨ p.op = 0b010 ∨ p.op = 0b101 → p.modeIn = q.modeIn)
    (htemp : p.op = 0b001 ∨ p.op = 0b010 → p.tempIn = q.tempIn) (hprev : p.op = 0b010 → p.prevIn = q.prevIn)
    (hframe : p.op = 0b011 → p.frameIn = q.frameIn) : decodePorts p = decodePorts q := by
  unfold decodePorts
  rw [← hrst, ← hop]
  split_ifs with h1 h2 h3 h4 h5 h6 h7
  · rw [hinit h1]
  · rfl
  · rw [hmode (.inl h3), htemp (.inl h3)]
  · rw [hmode (.inr (.inl h4)), htemp (.inr h4), hprev h4]
  · rw [hframe h5]
  · rfl
  · rw [hmode (.inr (.inr h7))]
  · rfl

/-- The rows that a request can ask for: an operation of the ports, or a frame row (log entries 1 and 7). -/
def requestable (i : Instr) : Prop := (∃ p, encode i = .ports p) ∨ ∃ f, encode i = .f34 f

theorem requestable_decodePorts (p : Ports) : requestable (decodePorts p) := by
  rcases decodePorts_cases p with ⟨_, h⟩ | ⟨_, ⟨_, h⟩ | ⟨_, h⟩ | ⟨_, h⟩ | ⟨_, h⟩ | ⟨_, h⟩ | ⟨_, h⟩ | ⟨_, h⟩⟩ <;>
    exact h ▸ .inl ⟨_, rfl⟩

theorem requestable_of_decodeFrame {f : FrameWord} {i : Instr} (h : decodeFrame f = .ok i) : requestable i := by
  unfold decodeFrame at h
  split_ifs at h <;> cases h <;> exact .inr ⟨_, rfl⟩

theorem requestable_of_decode {r : Request} {i : Instr} (h : decode r.encoding = .ok i) : requestable i := by
  cases r with
  | ports p => cases h; exact requestable_decodePorts p
  | frameWord f => exact requestable_of_decodeFrame h

/-! A step and the instruction it runs. -/

theorem step_of_decode {s : State} {i : Instr} (h : decode s.fetch = .ok i) : step s = exec i s := by
  simp [step, h]

theorem step_of_reject {s : State} {why : Reject} (h : decode s.fetch = .error why) :
    step s = .refused (.undecodable why) := by
  simp [step, h]

/-- Between operations the step runs the operation that the presented ports ask for. -/
theorem step_present {s : State} (h : betweenOperations s) (p : Ports) :
    step (s.present p) = exec (decodePorts p) (s.present p) :=
  step_of_decode (by rw [State.fetch_between (s := s.present p) h]; rfl)

/-- Between operations what a step completes is one that a request can ask for. -/
theorem step_next_of_between {s t : State} (hs : betweenOperations s) (h : step s = .next t) :
    ∃ i, requestable i ∧ exec i s = .next t := by
  obtain ⟨i, hdecode, hexec⟩ := step_next h
  rw [State.fetch_between hs] at hdecode
  exact ⟨i, requestable_of_decode hdecode, hexec⟩

/-- No instruction faults (R110). -/
theorem exec_answers (i : Instr) (s : State) : (∃ t, exec i s = .next t) ∨ ∃ r, exec i s = .refused r := by
  cases h : exec i s with
  | next t => exact .inl ⟨t, rfl⟩
  | refused r => exact .inr ⟨r, rfl⟩
  | fault r => nomatch r

/-- Whether an instruction is refused depends on the state only through whether a RESET has been performed (R127). -/
theorem exec_refused_congr {i : Instr} {s s' : State} {r : Refusal} (hreset : s.resetDone = s'.resetDone)
    (h : exec i s = .refused r) : exec i s' = .refused r := by
  rcases exec_refused h with ⟨⟨low, rfl⟩, rfl⟩ | ⟨rfl | ⟨m, temp, rfl⟩, hnone, rfl⟩
  · rfl
  · exact State.ifReset_of_not_resetDone (hreset ▸ hnone) _
  · exact State.ifReset_of_not_resetDone (hreset ▸ hnone) _

/-- A frame row is PE.ENCODE of its frame (log entry 7). -/
theorem exec_latchAndTransmit {i : Instr} {f : FrameWord} (hi : i = .peEncode f ∨ encode i = .f34 f) (s : State) :
    exec i s = .next (s.setFrame f).transmitted := by
  rcases hi with rfl | hi
  · exact exec_peEncode s f
  · rw [← State.transmit_eq]
    cases i <;> cases hi <;> rfl

/-- `exec_next` for what a request can ask for: no micro-step and no event row. -/
theorem exec_next_of_requestable {i : Instr} {s t : State} (hi : requestable i) (h : exec i s = .next t) :
    (i = .nop ∧ t = s) ∨
    (∃ m temp, i = .control m temp ∧ s.resetDone = true ∧
      t = ((s.setFrame (build m temp s.prevMode)).setPrevMode m).transmitted) ∨
    (∃ m temp prev, i = .feBuild m temp prev ∧ t = s.setFrame (build m temp prev)) ∨
    (∃ f, (i = .peEncode f ∨ encode i = .f34 f) ∧ t = (s.setFrame f).transmitted) ∨
    (i = .trkRead ∧ s.resetDone = true ∧ t = s.setModeOut s.prevMode) ∨
    (∃ m, i = .trkUpdate m ∧ t = s.setPrevMode m) ∨
    (∃ m, i = .reset m ∧ t = { State.reset with prevMode := m, modeOut := m, request := s.request }) := by
  have hstep2 : ∀ sel, encode i ≠ .step2 sel := fun sel he => by simp [requestable, he] at hi
  have hseq : ∀ ph, encode i ≠ .seq ph := fun ph he => by simp [requestable, he] at hi
  have htxw : ∀ w, encode i ≠ .txw w := fun w he => by simp [requestable, he] at hi
  simpa only [hstep2, hseq, htxw, false_and, exists_false, or_false] using exec_next h

/-! The state after a transmission (R24), field by field. -/

@[simp] theorem State.transmitted_prevMode (s : State) : s.transmitted.prevMode = s.prevMode := rfl
@[simp] theorem State.transmitted_frame (s : State) : s.transmitted.frame = s.frame := rfl
@[simp] theorem State.transmitted_modeOut (s : State) : s.transmitted.modeOut = s.modeOut := rfl
@[simp] theorem State.transmitted_tx (s : State) : s.transmitted.tx = s.tx ++ events s.frame := rfl
@[simp] theorem State.transmitted_resetDone (s : State) : s.transmitted.resetDone = s.resetDone := rfl
@[simp] theorem State.transmitted_request (s : State) : s.transmitted.request = s.request := rfl

/-! What the micro-steps and the calls of `TxEmit` leave unchanged (R11, R12, R18, R20). -/

/-- The registers that no micro-step and no call of `TxEmit` writes. -/
def sameLatches (s t : State) : Prop :=
  t.prevMode = s.prevMode ∧ t.modeOut = s.modeOut ∧ t.frame = s.frame ∧ t.resetDone = s.resetDone ∧
    t.request = s.request

/-- A bit step writes working registers and appends events (R82 to R85). -/
theorem bitStep_keeps_latches_and_appends {s t : State}
    (h : t = s.stepS0 ∨ t = s.stepS1 ∨ t = s.stepM0 ∨ t = s.stepM1) :
    sameLatches s t ∧ ∃ l, t.tx = s.tx ++ l := by
  rcases h with rfl | rfl | rfl | rfl
  · simp [sameLatches, State.stepS0]
  · simp [sameLatches, State.stepS1]
  · simp [sameLatches, State.stepM0]
  · simp [sameLatches, State.stepM1]

/-- Header, trail and footer write working registers and append an event (R81, R87, R89). -/
theorem sequencing_keeps_latches_and_appends {s t : State} (h : t = s.header ∨ t = s.trail ∨ t = s.footer) :
    sameLatches s t ∧ ∃ l, t.tx = s.tx ++ l := by
  rcases h with rfl | rfl | rfl
  · simp [sameLatches, State.header]
  · unfold State.trail
    split <;> simp [sameLatches]
  · simp [sameLatches, State.footer]

/-- A call of `TxEmit` writes the TX stream only (R35). -/
theorem serveCall_keeps_latches (s : State) (w : TxWord) (e : TxEvent) : sameLatches s (s.serveCall w e) := by
  rcases s.serveCall_cases w e with ⟨_, _, _, h⟩ | h <;> rw [h] <;> exact ⟨rfl, rfl, rfl, rfl, rfl⟩

/-- The events that the block hands over have the eleven words of R91 (c). -/
theorem word_mem_emittedWords {e : TxEvent} (h : e.produced = true) : e.word ∈ emittedWords := by
  have hunits : ∀ n, 1 ≤ n ∧ n ≤ 4 → n = 1 ∨ n = 2 ∨ n = 3 ∨ n = 4 := by omega
  cases e with
  | beginFrame => decide
  | send => decide
  | carrier hz =>
    obtain rfl : hz = Config.carrierHz := by simpa [TxEvent.produced] using h
    decide
  | space n =>
    rcases hunits n (by simpa [TxEvent.produced] using h) with rfl | rfl | rfl | rfl <;> decide
  | mark n =>
    rcases hunits n (by simpa [TxEvent.produced] using h) with rfl | rfl | rfl | rfl <;> decide

end Sys2Proof.Machine
end

