-- ==== Sys2Proof/Proofs/Sequencer.lean ====
section
/-! The invariant of the sequencer, one lemma per phase (R13, R15, R16, R17, R91 (a)). -/

namespace Sys2Proof.Machine

/-! The fields after a bit step (R82 to R86). -/

@[simp] theorem State.bitStep_frame (s : State) : s.bitStep.frame = s.frame := by simp [State.bitStep_eq]
@[simp] theorem State.bitStep_txCall (s : State) : s.bitStep.txCall = s.txCall := by simp [State.bitStep_eq]
@[simp] theorem State.bitStep_rep (s : State) : s.bitStep.rep = s.rep := by simp [State.bitStep_eq]
@[simp] theorem State.bitStep_pending (s : State) : s.bitStep.pending = 1 := by simp [State.bitStep_eq]

/-- The type left pending is that of the second half of the bit consumed. -/
theorem State.bitStep_nextType (s : State) :
    s.bitStep.nextType = if s.frame.getLsbD s.bitIdx.toNat then .mark else .space := by
  simp [State.bitStep_eq, pulseStep_nextType, State.currentBit]

theorem State.bitStep_phase (s : State) : s.bitStep.phase = if s.bitIdx = 0 then .trail else s.phase := by
  rw [State.bitStep_eq, State.advance_phase]; rfl

theorem State.bitStep_bitIdx (s : State) : s.bitStep.bitIdx = if s.bitIdx = 0 then 0 else s.bitIdx - 1 := by
  rw [State.bitStep_eq, State.advance_bitIdx]; rfl

/-! The invariant, kept phase by phase. -/

theorem seqInvariant_transmitted (s : State) : seqInvariant s.transmitted :=
  ⟨.inl rfl, .inr rfl, rfl, by simp [State.transmitted]⟩

/-- In phase IDLE the invariant is about the call that remains and three working registers. -/
theorem seqInvariant_idle_iff {s : State} (hphase : s.phase = .idle) :
    seqInvariant s ↔ (s.txCall = none ∨ s.txCall = sendCall) ∧ (s.pending = 0 ∨ s.pending = 1) ∧ s.bitIdx = 0 ∧
      s.rep.toNat ≤ 2 := by
  simp only [seqInvariant, hphase]

theorem seqInvariant_header {s : State} (hphase : s.phase = .header) (h : seqInvariant s) :
    seqInvariant s.header := by
  simp only [seqInvariant, hphase] at h
  obtain ⟨hcall, hrep⟩ := h
  exact ⟨hcall, hrep, .inl ⟨rfl, rfl, rfl⟩⟩

/-- In phase BITS the index is at most 33, whatever is pending (R15). -/
theorem bitIdx_le_of_seqInvariant {s : State} (hphase : s.phase = .bits) (h : seqInvariant s) :
    s.bitIdx.toNat ≤ 33 := by
  simp only [seqInvariant, hphase] at h
  obtain ⟨_, _, ⟨hidx, _⟩ | ⟨hidx, _⟩⟩ := h
  · simp [hidx]
  · omega

/-- The last bit leads to the trail, every other to the bit below it. -/
theorem seqInvariant_bitStep {s : State} (hphase : s.phase = .bits) (h : seqInvariant s) :
    seqInvariant s.bitStep := by
  have hle := bitIdx_le_of_seqInvariant hphase h
  simp only [seqInvariant, hphase] at h
  obtain ⟨hcall, hrep, _⟩ := h
  by_cases hzero : s.bitIdx = 0
  · have hphase' : s.bitStep.phase = .trail := by rw [State.bitStep_phase, if_pos hzero]
    simp [seqInvariant, hphase', hcall, hrep, State.bitStep_bitIdx, State.bitStep_nextType, hzero]
  · have hphase' : s.bitStep.phase = .bits := by rw [State.bitStep_phase, if_neg hzero, hphase]
    have hpred : (s.bitIdx - 1).toNat + 1 = s.bitIdx.toNat := by bv_omega
    have hlt : (s.bitIdx - 1).toNat < 33 := by omega
    simp only [seqInvariant, hphase', State.bitStep_txCall, State.bitStep_rep, State.bitStep_bitIdx, hzero,
      if_false, State.bitStep_pending, State.bitStep_nextType, State.bitStep_frame, hpred]
    exact ⟨hcall, hrep, .inr ⟨hlt, trivial, trivial⟩⟩

/-- The third repetition leads to the footer, every other to the next header (R87). -/
theorem seqInvariant_trail {s : State} (hphase : s.phase = .trail) (h : seqInvariant s) :
    seqInvariant s.trail := by
  simp only [seqInvariant, hphase] at h
  obtain ⟨hcall, hrep, hidx, hpending, _⟩ := h
  unfold State.trail
  split
  · next hlast => exact ⟨hcall, hlast, hidx, hpending⟩
  · next hmore =>
    have hrep' : (s.rep + 1).toNat ≤ 2 := by
      have : s.rep ≠ 2 := hmore
      bv_omega
    exact ⟨hcall, hrep'⟩

theorem seqInvariant_footer {s : State} (hphase : s.phase = .footer) (h : seqInvariant s) :
    seqInvariant s.footer := by
  simp only [seqInvariant, hphase] at h
  obtain ⟨hcall, hrep, hidx, hpending⟩ := h
  exact ⟨.inr hcall, .inr hpending, hidx, by simp [State.footer, hrep]⟩

theorem seqInvariant_microStep {s : State} (h : seqInvariant s) : seqInvariant s.microStep := by
  unfold State.microStep
  split
  · exact h
  · next hphase => exact seqInvariant_header hphase h
  · next hphase => exact seqInvariant_bitStep hphase h
  · next hphase => exact seqInvariant_trail hphase h
  · next hphase => exact seqInvariant_footer hphase h

/-- The `Send` ends the transmission and leaves the sequencer's registers (R90). -/
theorem seqInvariant_serveCall {s : State} (hphase : s.phase = .idle) (h : seqInvariant s) (w : TxWord)
    (e : TxEvent) : seqInvariant (s.serveCall w e) := by
  rcases s.serveCall_cases w e with ⟨_, _, _, hserved⟩ | hserved
  · obtain ⟨_, hregs⟩ := (seqInvariant_idle_iff hphase).mp h
    exact hserved ▸ (seqInvariant_idle_iff (by exact hphase)).mpr ⟨.inl rfl, hregs⟩
  · rwa [hserved]

/-- What is presented between operations leaves the sequencer's registers alone, or at their values after a
transmission or a RESET (R23, R24). -/
theorem seqInvariant_exec {i : Instr} {s t : State} (hi : requestable i) (hphase : s.phase = .idle)
    (h : seqInvariant s) (hexec : exec i s = .next t) : seqInvariant t := by
  have hregs := (seqInvariant_idle_iff hphase).mp h
  rcases exec_next_of_requestable hi hexec with ⟨_, rfl⟩ | ⟨m, temp, _, _, rfl⟩ | ⟨m, temp, prev, _, rfl⟩ |
    ⟨f, _, rfl⟩ | ⟨_, _, rfl⟩ | ⟨m, _, rfl⟩ | ⟨m, _, rfl⟩
  · exact h
  · exact seqInvariant_transmitted _
  · exact (seqInvariant_idle_iff (s := s.setFrame (build m temp prev)) hphase).mpr hregs
  · exact seqInvariant_transmitted _
  · exact (seqInvariant_idle_iff (s := s.setModeOut s.prevMode) hphase).mpr hregs
  · exact (seqInvariant_idle_iff (s := s.setPrevMode m) hphase).mpr hregs
  · exact ⟨.inl rfl, .inl rfl, rfl, Nat.zero_le 2⟩

/-- Settles O51, by the phase, and in phase IDLE by whether the `Send` remains. -/
theorem stepKeepsSequencerInvariant : Obligations.StepKeepsSequencerInvariant := by
  intro s t h hstep
  by_cases hphase : s.phase = .idle
  · obtain ⟨hnone | hsend, _⟩ := (seqInvariant_idle_iff hphase).mp h
    · obtain ⟨i, hi, hexec⟩ := step_next_of_between ⟨hphase, hnone⟩ hstep
      exact seqInvariant_exec hi hphase h hexec
    · rw [step_of_sendCall hphase hsend] at hstep
      cases hstep
      exact seqInvariant_serveCall hphase h _ _
  · rw [step_of_not_idle hphase] at hstep
    cases hstep
    exact seqInvariant_microStep h

/-- Settles O53: the registers are 0 and the stream is the empty list of transmissions. -/
theorem resetMeetsTheInvariants : Obligations.ResetMeetsTheInvariants :=
  ⟨⟨.inl rfl, .inl rfl, rfl, Nat.zero_le 2⟩, ⟨rfl, rfl⟩, [], rfl⟩

end Sys2Proof.Machine
end

