-- ==== Sys2Proof/Proofs/Registers.lean ====
section
/-! Who writes which register, and what no operation reads (R11, R12, R18 to R20, R23, R24). -/

namespace Sys2Proof.Machine

/-- Settles O42, by reading the fields. -/
theorem resetStateHoldsTheResetValues : Obligations.ResetStateHoldsTheResetValues :=
  ⟨rfl, rfl, rfl, rfl, rfl, rfl, rfl, rfl, rfl, rfl, fun _ _ => rfl⟩

/-- Settles O28: both operations end in `State.transmitted`, and the last bit decides what the bit run leaves pending. -/
theorem workingRegistersAfterATransmission : Obligations.WorkingRegistersAfterATransmission := by
  refine ⟨fun s i hi => ?registers, fun f => ⟨?pending, fun heven => ?nextType⟩⟩
  case registers =>
    rcases hi with ⟨f, rfl⟩ | ⟨hreset, m, temp, rfl⟩
    · exact ⟨_, exec_peEncode s f, rfl, rfl, rfl, rfl, rfl, rfl, rfl⟩
    · exact ⟨_, exec_control m temp hreset, rfl, rfl, rfl, rfl, rfl, rfl, rfl⟩
  case pending => exact bitRun_bitsBelow_pending f 33 3 .space
  case nextType => exact (bitRun_bitsBelow_nextType f 33 3 .space).trans (by rw [heven]; rfl)

/-! Ports that an operation does not use (R19). -/

/-- A requested operation reads nothing of what is presented beyond its own operands. -/
theorem exec_present {i : Instr} {s t : State} (hi : requestable i) (h : exec i s = .next t) (p : Ports) :
    exec i (s.present p) = .next (t.present p) := by
  rcases exec_next_of_requestable hi h with ⟨rfl, rfl⟩ | ⟨m, temp, rfl, hreset, rfl⟩ | ⟨m, temp, prev, rfl, rfl⟩ |
    ⟨f, hf, rfl⟩ | ⟨rfl, hreset, rfl⟩ | ⟨m, rfl, rfl⟩ | ⟨m, rfl, rfl⟩
  · rfl
  · exact exec_control m temp hreset
  · rfl
  · exact exec_latchAndTransmit hf _
  · exact exec_trkRead hreset
  · rfl
  · rfl

/-- Presented operations that are refused: a reserved code, and before any RESET CONTROL and TRK.READ. -/
theorem exec_decodePorts_refused {p : Ports} {s : State} {r : Refusal} (h : exec (decodePorts p) s = .refused r) :
    p.rst = 0 ∧ (((p.op = 0b110 ∨ p.op = 0b111) ∧ r = .reservedOp) ∨
      ((p.op = 0b001 ∨ p.op = 0b100) ∧ s.resetDone = false ∧ r = .beforeReset)) := by
  have hrefused := exec_refused h
  rcases decodePorts_cases p with
    ⟨_, hi⟩ | ⟨hrst, ⟨_, hi⟩ | ⟨hop, hi⟩ | ⟨_, hi⟩ | ⟨_, hi⟩ | ⟨hop, hi⟩ | ⟨_, hi⟩ | ⟨hop, hi⟩⟩ <;>
    rw [hi] at hrefused
  · simp at hrefused
  · simp at hrefused
  · exact ⟨hrst, .inr ⟨.inl hop, by simpa using hrefused⟩⟩
  · simp at hrefused
  · simp at hrefused
  · exact ⟨hrst, .inr ⟨.inr hop, by simpa using hrefused⟩⟩
  · simp at hrefused
  · exact ⟨hrst, .inl ⟨hop, by simpa using hrefused⟩⟩

/-- Settles O44: the decoder reads only the ports that the operation uses, and `exec` reads no port. -/
theorem unusedPortsAreIgnored : Obligations.UnusedPortsAreIgnored := by
  intro s p q hs hrst hop hinit hmode htemp hprev hframe
  have hsame : decodePorts q = decodePorts p :=
    (decodePorts_congr hrst hop hinit hmode htemp hprev hframe).symm
  rw [step_present hs p, step_present hs q, hsame]
  rcases exec_answers (decodePorts p) s with ⟨t, ht⟩ | ⟨r, hr⟩
  · exact .inl ⟨t.present p, exec_present (requestable_decodePorts p) ht p,
      exec_present (requestable_decodePorts p) ht q⟩
  · have hp : exec (decodePorts p) (s.present p) = .refused r := exec_refused_congr (s := s) rfl hr
    have hq : exec (decodePorts p) (s.present q) = .refused r := exec_refused_congr (s := s) rfl hr
    obtain ⟨hrst0, ⟨hreserved, rfl⟩ | ⟨hread, hnone, rfl⟩⟩ := exec_decodePorts_refused hr
    · exact .inr (.inl ⟨hrst0, hreserved, hp, hq⟩)
    · exact .inr (.inr ⟨hrst0, hread, hnone, hp, hq⟩)

/-! Writers (R11, R12, R18, R20). -/

/-- An instruction that keeps the latches needs no name among their writers. -/
theorem sameLatches.or_written {s t : State} (h : sameLatches s t) {P Q R S : Prop} :
    (t.prevMode = s.prevMode ∨ P) ∧ (t.modeOut = s.modeOut ∨ Q) ∧ (t.frame = s.frame ∨ R) ∧
      (t.resetDone = s.resetDone ∨ S) ∧ t.request = s.request := by
  obtain ⟨hprev, hout, hframe, hreset, hreq⟩ := h
  exact ⟨.inl hprev, .inl hout, .inl hframe, .inl hreset, hreq⟩

/-- Settles O48: the operations write by name, and the micro-steps and event rows keep all five. -/
theorem registersHaveOnlyTheirWriters : Obligations.RegistersHaveOnlyTheirWriters := by
  intro i s t h
  rcases exec_next h with ⟨rfl, rfl⟩ | ⟨m, temp, rfl, _, rfl⟩ | ⟨m, temp, prev, rfl, rfl⟩ | ⟨f, hi, rfl⟩ |
    ⟨rfl, _, rfl⟩ | ⟨m, rfl, rfl⟩ | ⟨m, rfl, rfl⟩ | ⟨_, ht⟩ | ⟨_, ht⟩ | ⟨w, e, _, rfl⟩
  · exact sameLatches.or_written ⟨rfl, rfl, rfl, rfl, rfl⟩
  · simp
  · simp
  · rcases hi with rfl | hi
    · simp
    · simp [hi]
  · simp
  · simp
  · simp
  · exact (bitStep_keeps_latches_and_appends ht).1.or_written
  · exact (sequencing_keeps_latches_and_appends ht).1.or_written
  · exact (serveCall_keeps_latches s w e).or_written

/-- Settles O49: a transmission and a micro-step append, an event row appends the event of its call, and the rest keep
the stream. -/
theorem txStreamIsAppendOnly : Obligations.TxStreamIsAppendOnly := by
  intro i s t h
  have hnil : s.tx = s.tx ++ [] := (List.append_nil s.tx).symm
  rcases exec_next h with ⟨_, rfl⟩ | ⟨m, temp, hi, _, rfl⟩ | ⟨m, temp, prev, _, rfl⟩ | ⟨f, hi, rfl⟩ |
    ⟨_, _, rfl⟩ | ⟨m, _, rfl⟩ | ⟨m, hi, rfl⟩ | ⟨hsel, ht⟩ | ⟨hseq, ht⟩ | ⟨w, e, hi, rfl⟩
  · exact .inr ⟨[], hnil, .inl rfl⟩
  · exact .inr ⟨_, rfl, by simp [hi]⟩
  · exact .inr ⟨[], hnil, .inl rfl⟩
  · exact .inr ⟨_, rfl, by rcases hi with hi | hi <;> simp [hi]⟩
  · exact .inr ⟨[], hnil, .inl rfl⟩
  · exact .inr ⟨[], hnil, .inl rfl⟩
  · exact .inl ⟨⟨m, hi⟩, rfl⟩
  · obtain ⟨_, l, htx⟩ := bitStep_keeps_latches_and_appends ht
    exact .inr ⟨l, htx, by simp [hsel]⟩
  · obtain ⟨_, l, htx⟩ := sequencing_keeps_latches_and_appends ht
    exact .inr ⟨l, htx, by simp [hseq]⟩
  · rcases s.serveCall_cases w e with ⟨hcall, hword, hproduced, hserved⟩ | hserved
    · have hmem : w ∈ emittedWords := hword ▸ word_mem_emittedWords hproduced
      exact .inr ⟨[e], by rw [hserved], by simp [hi, hcall, hword, hmem]⟩
    · exact .inr ⟨[], by rw [hserved]; exact hnil, .inl rfl⟩

/-! The working registers between operations (R24). -/

section
variable {s s' : State}

theorem sameVisible.fetch (h : sameVisible s s') : s'.fetch = s.fetch := by
  obtain ⟨_, _, _, _, hreq, _, hs, hs'⟩ := h
  rw [State.fetch_between hs, State.fetch_between hs', hreq]

theorem sameVisible.setFrame (h : sameVisible s s') (f : FrameWord) :
    sameVisible (s.setFrame f) (s'.setFrame f) := by
  obtain ⟨hprev, _, hout, htx, hreq, hreset, hs, hs'⟩ := h
  exact ⟨hprev, rfl, hout, htx, hreq, hreset, hs, hs'⟩

theorem sameVisible.setPrevMode (h : sameVisible s s') (m : ModeCode) :
    sameVisible (s.setPrevMode m) (s'.setPrevMode m) := by
  obtain ⟨_, hframe, hout, htx, hreq, hreset, hs, hs'⟩ := h
  exact ⟨rfl, hframe, hout, htx, hreq, hreset, hs, hs'⟩

theorem sameVisible.setModeOut (h : sameVisible s s') (m : ModeCode) :
    sameVisible (s.setModeOut m) (s'.setModeOut m) := by
  obtain ⟨hprev, hframe, _, htx, hreq, hreset, hs, hs'⟩ := h
  exact ⟨hprev, hframe, rfl, htx, hreq, hreset, hs, hs'⟩

/-- The events of a transmission are those of the frame, whatever the working registers held (R90). -/
theorem sameVisible.transmitted (h : sameVisible s s') : sameVisible s.transmitted s'.transmitted := by
  obtain ⟨hprev, hframe, hout, htx, hreq, hreset, _, _⟩ := h
  exact ⟨hprev, hframe, hout, by simp [htx, hframe], hreq, hreset, ⟨rfl, rfl⟩, rfl, rfl⟩

/-- A requested operation reads and writes alike in two states that differ in the working registers only. -/
theorem sameVisible.exec_next {i : Instr} {t : State} (h : sameVisible s s') (hi : requestable i)
    (hexec : exec i s = .next t) : ∃ t', exec i s' = .next t' ∧ sameVisible t t' := by
  have ⟨hprev, _, _, _, hreq, hreset, _, _⟩ := h
  rcases exec_next_of_requestable hi hexec with ⟨rfl, rfl⟩ | ⟨m, temp, rfl, hdone, rfl⟩ |
    ⟨m, temp, prev, rfl, rfl⟩ | ⟨f, hf, rfl⟩ | ⟨rfl, hdone, rfl⟩ | ⟨m, rfl, rfl⟩ | ⟨m, rfl, rfl⟩
  · exact ⟨s', rfl, h⟩
  · rw [hprev]
    exact ⟨_, exec_control m temp (hreset ▸ hdone), ((h.setFrame _).setPrevMode m).transmitted⟩
  · exact ⟨_, rfl, h.setFrame _⟩
  · exact ⟨_, exec_latchAndTransmit hf s', (h.setFrame f).transmitted⟩
  · rw [hprev]
    exact ⟨_, exec_trkRead (hreset ▸ hdone), h.setModeOut _⟩
  · exact ⟨_, rfl, h.setPrevMode m⟩
  · exact ⟨_, rfl, rfl, rfl, rfl, rfl, hreq, rfl, ⟨rfl, rfl⟩, rfl, rfl⟩

end

/-- Settles O50: both states fetch the same word, refuse alike, and complete alike. -/
theorem workingRegistersInfluenceNothing : Obligations.WorkingRegistersInfluenceNothing := by
  intro s s' h
  have ⟨_, _, _, _, _, hreset, hs, _⟩ := h
  cases hdecode : decode s.fetch with
  | error why => exact .inr ⟨_, step_of_reject hdecode, step_of_reject (h.fetch ▸ hdecode)⟩
  | ok i =>
    rw [step_of_decode hdecode, step_of_decode (s := s') (h.fetch ▸ hdecode)]
    have hi : requestable i := requestable_of_decode (State.fetch_between hs ▸ hdecode)
    rcases exec_answers i s with ⟨t, ht⟩ | ⟨r, hr⟩
    · obtain ⟨t', ht', hsame⟩ := h.exec_next hi ht
      exact .inl ⟨t, t', ht, ht', hsame⟩
    · exact .inr ⟨r, hr, exec_refused_congr hreset hr⟩

end Sys2Proof.Machine
end

section
/-! What stands between operations: the TX stream as whole transmissions (R34, R104), the mode that a read shows after
a run (R37, R136), and a frame in a wider container (R32). -/

namespace Sys2Proof.Machine

/-! One requested operation (R34). -/

/-- No operation is left in progress by one that a request can ask for (R126). -/
theorem betweenOperations_exec {i : Instr} {s t : State} (hi : requestable i) (hs : betweenOperations s)
    (h : exec i s = .next t) : betweenOperations t := by
  rcases exec_next_of_requestable hi h with ⟨_, rfl⟩ | ⟨m, temp, _, _, rfl⟩ | ⟨m, temp, prev, _, rfl⟩ |
    ⟨f, _, rfl⟩ | ⟨_, _, rfl⟩ | ⟨m, _, rfl⟩ | ⟨m, _, rfl⟩
  · exact hs
  · exact ⟨rfl, rfl⟩
  · exact hs
  · exact ⟨rfl, rfl⟩
  · exact hs
  · exact hs
  · exact ⟨rfl, rfl⟩

/-- A requested operation keeps the TX stream, appends one whole transmission, or is RESET and empties it. -/
theorem exec_tx_of_requestable {i : Instr} {s t : State} (hi : requestable i) (h : exec i s = .next t) :
    t.tx = s.tx ∨ (∃ f, t.tx = s.tx ++ events f) ∨ t.tx = [] := by
  rcases exec_next_of_requestable hi h with ⟨_, rfl⟩ | ⟨m, temp, _, _, rfl⟩ | ⟨m, temp, prev, _, rfl⟩ |
    ⟨f, _, rfl⟩ | ⟨_, _, rfl⟩ | ⟨m, _, rfl⟩ | ⟨m, _, rfl⟩
  · exact .inl rfl
  · exact .inr (.inl ⟨build m temp s.prevMode, rfl⟩)
  · exact .inl rfl
  · exact .inr (.inl ⟨f, rfl⟩)
  · exact .inl rfl
  · exact .inl rfl
  · exact .inr (.inr rfl)

theorem streamInvariant_exec {i : Instr} {s t : State} (hi : requestable i) (hs : streamInvariant s)
    (h : exec i s = .next t) : streamInvariant t := by
  obtain ⟨hbetween, fs, htx⟩ := hs
  refine ⟨betweenOperations_exec hi hbetween h, ?_⟩
  rcases exec_tx_of_requestable hi h with hkept | ⟨f, happended⟩ | hemptied
  · exact ⟨fs, hkept.trans htx⟩
  · exact ⟨fs ++ [f], by simp [happended, htx]⟩
  · exact ⟨[], hemptied⟩

/-- Settles O52: between operations a step runs what is presented, and only micro-steps and event rows could leave a
part of a transmission. -/
theorem stepKeepsWholeTransmissions : Obligations.StepKeepsWholeTransmissions := by
  intro s t hs hstep
  obtain ⟨i, hi, hexec⟩ := step_next_of_between hs.1 hstep
  exact streamInvariant_exec hi hs hexec

/-! Runs of operations (R136). -/

theorem runOps_cons_of_step {p : Ports} {s t : State} (h : step (s.present p) = .next t) (ps : List Ports) :
    runOps (p :: ps) s = runOps ps t := by
  rw [runOps, h]

/-- A run completes and ends where `P` holds, if `P` holds at its start and every operation of it completes and keeps
`P`. -/
theorem runOps_keeps {P : State → Prop} {allowed : Ports → Prop}
    (hkeeps : ∀ s q, P s → allowed q → ∃ t, step (s.present q) = .next t ∧ P t) (ps : List Ports) {s : State}
    (hs : P s) (hps : ∀ q ∈ ps, allowed q) : ∃ t, runOps ps s = .next t ∧ P t := by
  induction ps generalizing s with
  | nil => exact ⟨s, rfl, hs⟩
  | cons q rest ih =>
    obtain ⟨hq, hrest⟩ := List.forall_mem_cons.mp hps
    obtain ⟨t, hstep, ht⟩ := hkeeps s q hs hq
    rw [runOps_cons_of_step hstep]
    exact ih ht hrest

/-- After a RESET every code that is not reserved is served, and leaves no operation in progress (R48, R102, R127). -/
theorem exec_decodePorts_of_servable {q : Ports} {s : State} (hs : betweenOperations s)
    (hreset : s.resetDone = true) (hq : servable q) :
    ∃ t, exec (decodePorts q) s = .next t ∧ betweenOperations t := by
  rcases exec_answers (decodePorts q) s with ⟨t, ht⟩ | ⟨r, hr⟩
  · exact ⟨t, ht, betweenOperations_exec (requestable_decodePorts q) hs ht⟩
  · obtain ⟨hrst, ⟨hreserved, _⟩ | ⟨_, hnone, _⟩⟩ := exec_decodePorts_refused hr
    · rcases hq with hrst1 | ⟨h6, h7⟩
      · simp [hrst] at hrst1
      · exact absurd hreserved (not_or.mpr ⟨h6, h7⟩)
    · simp [hreset] at hnone

/-! The mode that a read shows (R37). -/

/-- No operation is in progress, a RESET has been performed, and the tracker holds `m`. -/
def holdsMode (m : ModeCode) (s : State) : Prop := betweenOperations s ∧ s.resetDone = true ∧ s.prevMode = m

theorem exec_trkRead_of_holdsMode {m : ModeCode} {s : State} (h : holdsMode m s) :
    exec .trkRead s = .next { s with modeOut := m } := by
  obtain ⟨_, hreset, rfl⟩ := h
  exact exec_trkRead hreset

/-- Ports that ask neither for RESET nor for TRK.UPDATE or CONTROL (R48). -/
theorem decodePorts_writes_no_mode {q : Ports} (hrst : q.rst = 0) (hupdate : q.op ≠ 0b101) (hcontrol : q.op ≠ 0b001) :
    (∀ m, decodePorts q ≠ .trkUpdate m) ∧ (∀ m temp, decodePorts q ≠ .control m temp) ∧
      ∀ m, decodePorts q ≠ .reset m := by
  rcases decodePorts_cases q with
    ⟨hrst1, _⟩ | ⟨_, ⟨_, h⟩ | ⟨hop, _⟩ | ⟨_, h⟩ | ⟨_, h⟩ | ⟨_, h⟩ | ⟨hop, _⟩ | ⟨_, h⟩⟩
  · simp [hrst] at hrst1
  · simp [h]
  · exact absurd hop hcontrol
  · simp [h]
  · simp [h]
  · simp [h]
  · exact absurd hop hupdate
  · simp [h]

/-- An operation that is not TRK.UPDATE, CONTROL or RESET keeps the mode that a read shows (R11). -/
theorem holdsMode_step_present {m : ModeCode} {s : State} {q : Ports} (hs : holdsMode m s)
    (hq : servable q ∧ q.rst = 0 ∧ q.op ≠ 0b101 ∧ q.op ≠ 0b001) :
    ∃ t, step (s.present q) = .next t ∧ holdsMode m t := by
  obtain ⟨hbetween, hreset, hmode⟩ := hs
  obtain ⟨hservable, hrst, hupdate, hcontrol⟩ := hq
  obtain ⟨t, hexec, ht⟩ := exec_decodePorts_of_servable (s := s.present q) hbetween hreset hservable
  obtain ⟨hprev, _, _, hdone, _⟩ := registersHaveOnlyTheirWriters _ _ _ hexec
  obtain ⟨noUpdate, noControl, noReset⟩ := decodePorts_writes_no_mode hrst hupdate hcontrol
  simp only [noUpdate, noControl, noReset, exists_false, or_false] at hprev hdone
  exact ⟨t, (step_present hbetween q).trans hexec, ht, hdone.trans hreset, hprev.trans hmode⟩

/-- TRK.UPDATE, CONTROL and RESET leave the mode that they write (R61, R100, R125). -/
theorem holdsMode_of_write {m : ModeCode} {s : State} {p : Ports} (hs : betweenOperations s)
    (hreset : s.resetDone = true ∨ p.rst = 1)
    (hp : decodePorts p = .trkUpdate m ∨ (∃ temp, decodePorts p = .control m temp) ∨ decodePorts p = .reset m) :
    ∃ t, step (s.present p) = .next t ∧ holdsMode m t := by
  have hdone : s.resetDone = true ∨ decodePorts p = .reset p.initMode :=
    hreset.imp_right fun hrst => by simp [decodePorts, hrst]
  rw [step_present hs p]
  rcases hp with h | ⟨temp, h⟩ | h
  · have hdone' : s.resetDone = true := by simpa [h] using hdone
    rw [h]
    exact ⟨_, rfl, hs, hdone', rfl⟩
  · have hdone' : s.resetDone = true := by simpa [h] using hdone
    rw [h]
    exact ⟨_, exec_control (s := s.present p) m temp hdone', ⟨rfl, rfl⟩, hdone', rfl⟩
  · rw [h]
    exact ⟨_, rfl, ⟨rfl, rfl⟩, rfl, rfl⟩

/-- Settles O55: the first operation writes the mode, and the rest of the run keeps it. -/
theorem readShowsTheLatestMode : Obligations.ReadShowsTheLatestMode := by
  intro ps p s m hs hreset hservable hp hps
  obtain ⟨s', hstep, hs'⟩ := holdsMode_of_write hs hreset hp
  obtain ⟨t, hrun, ht⟩ := runOps_keeps (fun _ _ => holdsMode_step_present) ps hs'
    fun q hq => ⟨hservable q hq, hps q hq⟩
  exact ⟨t, (runOps_cons_of_step hstep ps).trans hrun, ht.1, exec_trkRead_of_holdsMode ht⟩

/-! Containers (R32). -/

theorem getLsbD_frameFromWide {n : Nat} (w : BitVec n) {i : Nat} (hi : i < 34) :
    (frameFromWide w).getLsbD i = w.getLsbD i := by
  simp [frameFromWide, hi]

/-- Settles O18: the bits of a frame below 34 are those of its container, and it has no others. -/
theorem frameInWiderContainer : Obligations.FrameInWiderContainer := by
  refine ⟨fun n f hn => ⟨?survives, fun i hi => ?zeroAbove⟩, fun n w w' h => ?lowBits⟩
  case survives => exact (BitVec.setWidth_setWidth_of_le f hn).trans (BitVec.setWidth_eq f)
  case zeroAbove => simp [frameToWide, BitVec.getLsbD_of_ge f i hi]
  case lowBits =>
    refine BitVec.eq_of_getLsbD_eq fun i hi => ?_
    rw [getLsbD_frameFromWide w hi, getLsbD_frameFromWide w' hi, h i hi]

end Sys2Proof.Machine
end

section
/-! The encodings of section 8 of 30_encoding.md as one statement per format: a word decodes to an instruction exactly
when it is the word that the encoder gives it (R41, R48, R50, R51, R56). -/

namespace Sys2Proof.Machine

/-! Frames (R41, R45, R56). -/

theorem packFrame_inj {x y : FrameFields} : packFrame x = packFrame y ↔ x = y :=
  ⟨fun h => by simpa using congrArg unpackFrame h, congrArg packFrame⟩

/-- The mask of the five rows with a free power bit clears power and temperature, and keeps the other fields (R56). -/
theorem and_kindMask (f : FrameWord) :
    f &&& 0x1FF87FFFF = packFrame { unpackFrame f with power := 0, temperature := 0 } := by
  apply BitVec.eq_of_getLsbD_eq
  intro i hi
  simp only [packFrame, unpackFrame, BitVec.getLsbD_and, BitVec.getLsbD_extractLsb', BitVec.getLsbD_append]
  interval_cases i <;> simp

/-- The mask of `FRAME.OFF` clears the temperature only (R56). -/
theorem and_offMask (f : FrameWord) :
    f &&& 0x3FF87FFFF = packFrame { unpackFrame f with temperature := 0 } := by
  apply BitVec.eq_of_getLsbD_eq
  intro i hi
  simp only [packFrame, unpackFrame, BitVec.getLsbD_and, BitVec.getLsbD_extractLsb', BitVec.getLsbD_append]
  interval_cases i <;> simp

@[simp] theorem unpackFrame_kindFrame (m : ModeCode) (p : BitVec 1) (t : BitVec 4) :
    unpackFrame (kindFrame m p t) = { baseFields with mode := m, power := p, temperature := t } := by
  simp [kindFrame]

theorem kindFrame_inj {m m' : ModeCode} {p p' : BitVec 1} {t t' : BitVec 4} :
    kindFrame m p t = kindFrame m' p' t' ↔ m = m' ∧ p = p' ∧ t = t' := by
  simp only [kindFrame, packFrame_inj, FrameFields.mk.injEq, true_and, and_true]
  tauto

theorem kindFrame_and_kindMask (m : ModeCode) (p : BitVec 1) (t : BitVec 4) :
    kindFrame m p t &&& 0x1FF87FFFF = kindFrame m 0 0 := by
  rw [and_kindMask, unpackFrame_kindFrame, kindFrame]

theorem kindFrame_and_offMask (m : ModeCode) (p : BitVec 1) (t : BitVec 4) :
    kindFrame m p t &&& 0x3FF87FFFF = kindFrame m p 0 := by
  rw [and_offMask, unpackFrame_kindFrame, kindFrame]

/-- A frame that matches a row with a free power bit has that row's constant fields. -/
theorem eq_kindFrame_of_and_kindMask {f : FrameWord} {m : ModeCode} (h : f &&& 0x1FF87FFFF = kindFrame m 0 0) :
    f = kindFrame m (unpackFrame f).power (unpackFrame f).temperature := by
  rw [and_kindMask, kindFrame, packFrame_inj] at h
  rw [kindFrame, ← packFrame_unpackFrame f, packFrame_inj, unpackFrame_packFrame]
  generalize unpackFrame f = x at h ⊢
  cases x
  simpa using h

/-- A frame that matches the row `FRAME.OFF` has its constant fields, power 0 among them. -/
theorem eq_kindFrame_of_and_offMask {f : FrameWord} {m : ModeCode} {p : BitVec 1}
    (h : f &&& 0x3FF87FFFF = kindFrame m p 0) : f = kindFrame m p (unpackFrame f).temperature := by
  rw [and_offMask, kindFrame, packFrame_inj] at h
  rw [kindFrame, ← packFrame_unpackFrame f, packFrame_inj, unpackFrame_packFrame]
  generalize unpackFrame f = x at h ⊢
  cases x
  simpa using h

theorem and_kindMask_eq_iff {f : FrameWord} {m : ModeCode} :
    f &&& 0x1FF87FFFF = kindFrame m 0 0 ↔ ∃ p t, kindFrame m p t = f := by
  refine ⟨fun h => ⟨_, _, (eq_kindFrame_of_and_kindMask h).symm⟩, ?_⟩
  rintro ⟨p, t, rfl⟩
  exact kindFrame_and_kindMask m p t

theorem and_offMask_eq_iff {f : FrameWord} {m : ModeCode} {p : BitVec 1} :
    f &&& 0x3FF87FFFF = kindFrame m p 0 ↔ ∃ t, kindFrame m p t = f := by
  refine ⟨fun h => ⟨_, (eq_kindFrame_of_and_offMask h).symm⟩, ?_⟩
  rintro ⟨t, rfl⟩
  exact kindFrame_and_offMask m p t

/-- `decodeFrame` with the `match` column written as the frames of each kind with power and temperature zero. -/
theorem decodeFrame_eq (f : FrameWord) :
    decodeFrame f =
      if f &&& 0x1FF87FFFF = kindFrame Mode.cool 0 0 then
        .ok (.frameCool (unpackFrame f).power (unpackFrame f).temperature)
      else if f &&& 0x1FF87FFFF = kindFrame Mode.heat 0 0 then
        .ok (.frameHeat (unpackFrame f).power (unpackFrame f).temperature)
      else if f &&& 0x1FF87FFFF = kindFrame Mode.auto 0 0 then
        .ok (.frameAuto (unpackFrame f).power (unpackFrame f).temperature)
      else if f &&& 0x3FF87FFFF = kindFrame Mode.off 0 0 then .ok (.frameOff (unpackFrame f).temperature)
      else if f &&& 0x1FF87FFFF = kindFrame Mode.dry 0 0 then
        .ok (.frameDry (unpackFrame f).power (unpackFrame f).temperature)
      else if f &&& 0x1FF87FFFF = kindFrame Mode.fan 0 0 then
        .ok (.frameFan (unpackFrame f).power (unpackFrame f).temperature)
      else .error (.noFrameKind f) :=
  rfl

/-- What the frame of a mode code decodes to: the row of that mode; mode `0b111` with power 1 has none (R56). -/
theorem decodeFrame_kindFrame (m : ModeCode) (p : BitVec 1) (t : BitVec 4) :
    decodeFrame (kindFrame m p t) =
      if m = Mode.cool then .ok (.frameCool p t)
      else if m = Mode.heat then .ok (.frameHeat p t)
      else if m = Mode.auto then .ok (.frameAuto p t)
      else if m = Mode.off ∧ p = 0 then .ok (.frameOff t)
      else if m = Mode.dry then .ok (.frameDry p t)
      else if m = Mode.fan then .ok (.frameFan p t)
      else .error (.noFrameKind (kindFrame m p t)) := by
  simp only [decodeFrame_eq, kindFrame_and_kindMask, kindFrame_and_offMask, kindFrame_inj, unpackFrame_kindFrame,
    and_true]

/-- A frame decodes to a row exactly when it is the frame of that row (R56). -/
theorem decodeFrame_eq_ok_iff {f : FrameWord} {i : Instr} : decodeFrame f = .ok i ↔ encode i = .f34 f := by
  constructor
  · intro h
    rw [decodeFrame_eq] at h
    split_ifs at h with hcool hheat hauto hoff hdry hfan
    · cases h; exact congrArg _ (eq_kindFrame_of_and_kindMask hcool).symm
    · cases h; exact congrArg _ (eq_kindFrame_of_and_kindMask hheat).symm
    · cases h; exact congrArg _ (eq_kindFrame_of_and_kindMask hauto).symm
    · cases h; exact congrArg _ (eq_kindFrame_of_and_offMask hoff).symm
    · cases h; exact congrArg _ (eq_kindFrame_of_and_kindMask hdry).symm
    · cases h; exact congrArg _ (eq_kindFrame_of_and_kindMask hfan).symm
  · intro h
    cases i with
    | frameCool p t => cases h; exact decodeFrame_kindFrame Mode.cool p t
    | frameHeat p t => cases h; exact decodeFrame_kindFrame Mode.heat p t
    | frameAuto p t => cases h; exact decodeFrame_kindFrame Mode.auto p t
    | frameOff t => cases h; exact decodeFrame_kindFrame Mode.off 0 t
    | frameDry p t => cases h; exact decodeFrame_kindFrame Mode.dry p t
    | frameFan p t => cases h; exact decodeFrame_kindFrame Mode.fan p t
    | _ => cases h

/-! Event words, selectors and phases (R50, R51, R17). -/

theorem decodeTx_eq_ok_iff {w : TxWord} {i : Instr} : decodeTx w = .ok i ↔ encode i = .txw w := by
  constructor
  · intro h
    have hw : ∀ k, txKind w = k → txWord k (txArg w) = w := by
      rintro k rfl
      exact txWord_txKind_txArg w
    unfold decodeTx at h
    split_ifs at h with hbegin hcarrier hspace hmark hsend
    · cases h; exact congrArg _ (hw _ hbegin)
    · cases h; exact congrArg _ (hw _ hcarrier)
    · cases h; exact congrArg _ (hw _ hspace)
    · cases h; exact congrArg _ (hw _ hmark)
    · cases h; exact congrArg _ (hw _ hsend)
  · intro h
    cases i with
    | txBegin | txCarrier | txSpace | txMark | txSend => cases h; simp [decodeTx]
    | _ => cases h

theorem decodeStep2_eq_iff {sel : BitVec 2} {i : Instr} : decodeStep2 sel = i ↔ encode i = .step2 sel := by
  constructor
  · rintro rfl
    revert sel
    decide
  · intro h
    cases i with
    | peStepS0 | peStepS1 | peStepM0 | peStepM1 => cases h; rfl
    | _ => cases h

theorem decodeSeq_eq_ok_iff {ph : BitVec 3} {i : Instr} : decodeSeq ph = .ok i ↔ encode i = .seq ph := by
  constructor
  · intro h
    unfold decodeSeq at h
    split_ifs at h with hheader htrail hfooter
    · cases h; rw [hheader]; rfl
    · cases h; rw [htrail]; rfl
    · cases h; rw [hfooter]; rfl
  · intro h
    cases i with
    | peHeader | peTrail | peFooter => cases h; rfl
    | _ => cases h

/-! Operations of the ports (R48, R19, R126). -/

theorem decodePorts_of_encode {p : Ports} {i : Instr} (h : encode i = .ports p) : decodePorts p = i := by
  cases i with
  | opReserved low => cases h; revert low; decide
  | nop | control | feBuild | peEncode | trkRead | trkUpdate | reset => cases h; rfl
  | _ => cases h

/-- Settles O56: the encoding names its format, and each format's decoder reads it back. -/
theorem decodeOfEncode : Obligations.DecodeOfEncode := by
  intro i
  cases h : encode i with
  | ports p => exact congrArg _ (decodePorts_of_encode h)
  | step2 sel => exact congrArg _ (decodeStep2_eq_iff.mpr h)
  | seq ph => exact decodeSeq_eq_ok_iff.mpr h
  | f34 f => exact decodeFrame_eq_ok_iff.mpr h
  | txw w => exact decodeTx_eq_ok_iff.mpr h

/-- Two transactions agree on `RST`, on `INIT_MODE` for RESET, and otherwise on `OP` and on every operand port that the
operation uses (R19). -/
def agreeOnUsedPorts (p q : Ports) : Prop :=
  p.rst = q.rst ∧ (p.rst = 1 → p.initMode = q.initMode) ∧
    (p.rst = 0 → p.op = q.op ∧
      (p.op = 0b001 ∨ p.op = 0b010 ∨ p.op = 0b101 → p.modeIn = q.modeIn) ∧
      (p.op = 0b001 ∨ p.op = 0b010 → p.tempIn = q.tempIn) ∧ (p.op = 0b010 → p.prevIn = q.prevIn) ∧
      (p.op = 0b011 → p.frameIn = q.frameIn))

/-- The encoding of what the ports ask for holds their own values on the ports that the operation uses. -/
theorem encode_decodePorts (p : Ports) : ∃ q, encode (decodePorts p) = .ports q ∧ agreeOnUsedPorts p q := by
  rcases decodePorts_cases p with ⟨hrst, h⟩ | ⟨hrst, hop⟩
  · exact ⟨_, by rw [h]; rfl, by simp [agreeOnUsedPorts, hrst]⟩
  · rcases hop with ⟨hop, h⟩ | ⟨hop, h⟩ | ⟨hop, h⟩ | ⟨hop, h⟩ | ⟨hop, h⟩ | ⟨hop, h⟩ | ⟨hop | hop, h⟩ <;>
      exact ⟨_, by rw [h]; rfl, by simp [agreeOnUsedPorts, hrst, hop, Ports.zero]⟩

/-- Settles O57: on the ports by `encode_decodePorts`; in every other format a word decodes to what encodes to it. -/
theorem encodeOfDecode : Obligations.EncodeOfDecode := by
  intro e i h
  cases e with
  | ports p =>
    obtain ⟨q, hq, hports⟩ := encode_decodePorts p
    cases h
    exact .inr ⟨p, q, rfl, hq, hports⟩
  | step2 sel => exact .inl ⟨decodeStep2_eq_iff.mp (Except.ok.inj h), nofun⟩
  | seq ph => exact .inl ⟨decodeSeq_eq_ok_iff.mp h, nofun⟩
  | f34 f => exact .inl ⟨decodeFrame_eq_ok_iff.mp h, nofun⟩
  | txw w => exact .inl ⟨decodeTx_eq_ok_iff.mp h, nofun⟩

/-- Settles O16: a frame decodes to a row exactly when it is a frame of that row, and those are the frames that match
the row under its mask. -/
theorem frameKindsAreMaskMatches : Obligations.FrameKindsAreMaskMatches := by
  intro f
  simp only [decode, decodeFrame_eq_ok_iff, encode, Encoding.f34.injEq]
  exact ⟨and_kindMask_eq_iff.symm, and_kindMask_eq_iff.symm, and_kindMask_eq_iff.symm, and_offMask_eq_iff.symm,
    and_kindMask_eq_iff.symm, and_kindMask_eq_iff.symm⟩

/-! Built frames (R41, R45, R65). -/

/-- A built frame is the frame of its arm (R65, R66). -/
theorem build_eq_kindFrame (m : ModeCode) (temp : TempWord) (prev : ModeCode) :
    build m temp prev = kindFrame (modeAndPower m prev).1 (modeAndPower m prev).2 (tempField temp) :=
  rfl

/-- Settles O17: a built frame is the frame of its arm's mode, and that mode decides the row. -/
theorem builtFrameDecodesToItsKind : Obligations.BuiltFrameDecodesToItsKind := by
  intro m temp prev
  rw [build_eq_kindFrame]
  refine (decodeFrame_kindFrame _ _ _).trans ?_
  rcases modeAndPower_cases m prev with ⟨rfl, h⟩ | ⟨rfl, h⟩ | ⟨rfl, h⟩ | ⟨hcool, hheat, hauto, h⟩
  · rw [h]; rfl
  · rw [h]; rfl
  · rw [h]; rfl
  · rw [h, if_neg hcool, if_neg hheat, if_neg hauto]; rfl

/-- Settles O12: `build` writes mode, power and temperature of `base()` only (R66). -/
theorem builtFramesHaveConstantFields : Obligations.BuiltFramesHaveConstantFields := by
  intro m temp prev
  rw [unpackFrame_build]
  exact ⟨rfl, rfl, rfl, rfl, rfl, rfl, rfl, rfl, rfl⟩

theorem toNat_append_eq_add {m n : Nat} (x : BitVec m) (y : BitVec n) :
    (x ++ y).toNat = x.toNat * 2 ^ n + y.toNat := by
  rw [BitVec.toNat_append, ← Nat.shiftLeft_add_eq_or_of_lt y.isLt, Nat.shiftLeft_eq]

/-- A frame as a number: each field times the weight of its lowest bit (R41). -/
theorem toNat_packFrame (x : FrameFields) :
    (packFrame x).toNat = x.power.toNat * 2 ^ 33 + x.mode.toNat * 2 ^ 30 + x.fan.toNat * 2 ^ 28 +
      x.zeros4.toNat * 2 ^ 26 + x.swing.toNat * 2 ^ 25 + x.ifeel.toNat * 2 ^ 24 + x.zeros3.toNat * 2 ^ 23 +
      x.temperature.toNat * 2 ^ 19 + x.sleep.toNat * 2 ^ 18 + x.zeros2.toNat * 2 ^ 2 + x.one.toNat * 2 +
      x.zero.toNat := by
  simp only [packFrame, toNat_append_eq_add]
  omega

/-- Settles O13: the weights of `toNat_packFrame`, with the constant fields of R45. -/
theorem builtFrameValue : Obligations.BuiltFrameValue := by
  intro m temp prev
  rw [build, toNat_packFrame]
  simp [buildFields, baseFields, Config.fanField]

/-! What a placed word makes the next step fetch (log entry 6). -/

theorem PulseType.bit_ofBit (b : BitVec 1) : (PulseType.ofBit b).bit = b := by
  revert b; decide

theorem ofBool_getLsbD_withTopBit (f : FrameWord) (b : BitVec 1) :
    BitVec.ofBool ((withTopBit f b).getLsbD 33) = b := by
  have htop : (withTopBit f b).getLsbD 33 = b.getLsbD 0 := by
    simp only [withTopBit, BitVec.getLsbD_append]
    rfl
  have hbit : ∀ b : BitVec 1, BitVec.ofBool (b.getLsbD 0) = b := by decide
  rw [htop, hbit]

/-- In phase BITS a placed selector is the selector that the sequencer forms (R50). -/
theorem stepSelector_place_step2 (s : State) (sel : BitVec 2) : (s.place (.step2 sel)).stepSelector = sel := by
  have hsplit : sel.extractLsb' 1 1 ++ sel.extractLsb' 0 1 = sel := by revert sel; decide
  calc (s.place (.step2 sel)).stepSelector
      = (PulseType.ofBit (sel.extractLsb' 1 1)).bit ++
          BitVec.ofBool ((withTopBit s.frame (sel.extractLsb' 0 1)).getLsbD 33) := rfl
    _ = sel := by rw [PulseType.bit_ofBit, ofBool_getLsbD_withTopBit, hsplit]

/-- A word that decodes is fetched where it is placed. -/
theorem fetch_place {e : Encoding} {i : Instr} (s : State) (h : decode e = .ok i) : (s.place e).fetch = e := by
  cases e with
  | ports p => rfl
  | f34 f => rfl
  | txw w => rfl
  | step2 sel => exact congrArg _ (stepSelector_place_step2 s sel)
  | seq ph =>
    have hi := decodeSeq_eq_ok_iff.mp h
    cases i with
    | peHeader | peTrail | peFooter => cases hi; rfl
    | _ => cases hi

/-- Settles O46: what the word decodes to is fetched from where it is placed. -/
theorem placedTableWordRuns : Obligations.PlacedTableWordRuns := by
  intro s nbits w i h
  unfold decodeTableWord at h
  unfold State.withFetchWord
  cases htable : tableEncoding nbits w with
  | none => simp [htable] at h
  | some e =>
    cases hdecode : decode e with
    | error why => simp [htable, hdecode] at h
    | ok j =>
      obtain rfl : j = i := by simpa [htable, hdecode] using h
      exact step_of_decode (by rw [fetch_place s hdecode]; exact hdecode)

/-- Settles O24: the selector is the code of `NEXT_TYPE` before the frame bit. -/
theorem selectorPicksTheBitStep : Obligations.SelectorPicksTheBitStep := by
  refine ⟨rfl, rfl, rfl, rfl, fun s hphase => ⟨by simp [State.fetch, hphase], ?_, ?_⟩⟩
  · unfold State.stepSelector
    cases s.nextType <;> cases s.currentBit <;> rfl
  · unfold State.stepSelector
    cases s.nextType <;> cases s.currentBit <;> rfl

/-- Settles O58: each word is the encoding of its instruction. -/
theorem sampleWordsDecode : Obligations.SampleWordsDecode :=
  ⟨decodeOfEncode (.control 0b001 0x1800), decodeOfEncode (.reset 0b111), decodeOfEncode (.frameCool 1 0b1001),
    decodeOfEncode (.txMark 3), decodeOfEncode .peStepM0, decodeOfEncode .peTrail⟩

/-- Settles O59: a frame row is the latch and the transmission of its frame. -/
theorem frameRowsSerialize : Obligations.FrameRowsSerialize := by
  intro s power temperature
  have hrow : ∀ i f, encode i = .f34 f → exec i s = .next (s.setFrame f).transmitted :=
    fun i f hi => exec_latchAndTransmit (.inr hi) s
  exact ⟨hrow _ _ rfl, hrow _ _ rfl, hrow _ _ rfl, hrow _ _ rfl, hrow _ _ rfl, hrow _ _ rfl,
    fun i f hi => (hrow i f hi).trans (exec_peEncode s f).symm⟩

end Sys2Proof.Machine
end

section
/-! The tracker: what TRK.READ shows and how long it stands (R60), and what TRK.UPDATE and CONTROL store (R61, R62). -/

namespace Sys2Proof.Machine

/-! TRK.READ and `MODE_OUT` (R60). -/

/-- No operation is in progress, a RESET has been performed, and the port `MODE_OUT` shows `m`. -/
def showsMode (m : ModeCode) (s : State) : Prop := betweenOperations s ∧ s.resetDone = true ∧ s.modeOut = m

/-- Ports that ask neither for RESET nor for TRK.READ: `OP` and `RST` say so in the encoding of either (R48). -/
theorem decodePorts_shows_no_mode {q : Ports} (hrst : q.rst = 0) (hread : q.op ≠ 0b100) :
    decodePorts q ≠ .trkRead ∧ ∀ m, decodePorts q ≠ .reset m := by
  obtain ⟨p, hencode, hsameRst, _, hsameOp⟩ := encode_decodePorts q
  refine ⟨fun h => ?read, fun m h => ?reset⟩ <;> rw [h] at hencode <;> cases hencode
  case read => exact hread (hsameOp hrst).1
  case reset => simp [hrst] at hsameRst

/-- An operation that is neither TRK.READ nor RESET leaves what `MODE_OUT` shows (R20). -/
theorem showsMode_step_present {m : ModeCode} {s : State} {q : Ports} (hs : showsMode m s)
    (hq : q.rst = 0 ∧ servable q ∧ q.op ≠ 0b100) : ∃ t, step (s.present q) = .next t ∧ showsMode m t := by
  obtain ⟨hbetween, hreset, hmode⟩ := hs
  obtain ⟨hrst, hservable, hread⟩ := hq
  obtain ⟨t, hexec, ht⟩ := exec_decodePorts_of_servable (s := s.present q) hbetween hreset hservable
  obtain ⟨_, hout, _, hdone, _⟩ := registersHaveOnlyTheirWriters _ _ _ hexec
  obtain ⟨noRead, noReset⟩ := decodePorts_shows_no_mode hrst hread
  simp only [noRead, noReset, exists_false, or_false] at hout hdone
  exact ⟨t, (step_present hbetween q).trans hexec, ht, hdone.trans hreset, hout.trans hmode⟩

/-- Settles O1: the read is `exec_trkRead`, and two inductions over the operations after it keep what `MODE_OUT` shows
and what the tracker holds. -/
theorem trkReadShowsPrevMode : Obligations.TrkReadShowsPrevMode := by
  refine ⟨fun p hrst hop => ?decodes, fun s hreset => exec_trkRead hreset, fun s m => ?afterReset,
    fun ps s hs hreset hps => ?holds, fun ps s hs hreset hps => ?repeats⟩
  case decodes => simp [decode, decodePorts, hrst, hop]
  case afterReset => exact ⟨_, rfl, exec_trkRead rfl⟩
  case holds =>
    have hshown : showsMode s.prevMode (s.setModeOut s.prevMode) := ⟨hs, hreset, rfl⟩
    obtain ⟨u, hrun, _, _, hout⟩ := runOps_keeps (fun _ _ => showsMode_step_present) ps hshown hps
    exact ⟨_, u, exec_trkRead hreset, hrun, hout⟩
  case repeats =>
    have hheld : holdsMode s.prevMode (s.setModeOut s.prevMode) := ⟨hs, hreset, rfl⟩
    obtain ⟨u, hrun, hu⟩ := runOps_keeps (fun _ _ => holdsMode_step_present) ps hheld
      fun q hq => and_left_comm.mp (hps q hq)
    exact ⟨_, u, exec_trkRead hreset, hrun, exec_trkRead_of_holdsMode hu⟩

/-! TRK.UPDATE (R61). -/

/-- Settles O2, by reading the assignment to `PREV_MODE`; the read after it is `exec_trkRead`. -/
theorem trkUpdateStoresRawMode : Obligations.TrkUpdateStoresRawMode := by
  refine ⟨fun p hrst hop => ?decodes, fun s m => rfl, fun s => rfl, fun s hreset => ?readAfter⟩
  case decodes => simp [decode, decodePorts, hrst, hop]
  case readAfter => exact ⟨s.setPrevMode Mode.cool, rfl, exec_trkRead (s := s.setPrevMode Mode.cool) hreset⟩

/-! Unrecognized codes (R62). -/

theorem ne_of_not_recognized {m : ModeCode} (h : recognized m = false) :
    m ≠ Mode.cool ∧ m ≠ Mode.heat ∧ m ≠ Mode.auto ∧ m ≠ Mode.off := by
  simpa [recognized, and_assoc] using h

/-- An unrecognized request has the arm of Off (R70). -/
theorem modeAndPower_of_not_recognized {m : ModeCode} (h : recognized m = false) (prev : ModeCode) :
    modeAndPower m prev = (Mode.off, 0) := by
  obtain ⟨hcool, hheat, hauto, _⟩ := ne_of_not_recognized h
  simp [modeAndPower, hcool, hheat, hauto]

/-- From a previous mode that is not Off no request toggles the power (R73). -/
theorem modeAndPower_power_of_prev_ne_off {prev : ModeCode} (h : prev ≠ Mode.off) (m : ModeCode) :
    (modeAndPower m prev).2 = 0 := by
  rcases modeAndPower_cases m prev with ⟨_, harm⟩ | ⟨_, harm⟩ | ⟨_, harm⟩ | ⟨_, _, _, harm⟩ <;>
    simp [harm, h]

/-- Settles O3: both operations write the request as given; an unrecognized one builds by the arm of Off, and stored as
the previous mode it is not Off, so the next request toggles nothing. -/
theorem trackerValidatesNothing : Obligations.TrackerValidatesNothing := by
  refine ⟨fun s m => ⟨_, rfl, rfl⟩, fun s m temp hreset =>
    ⟨_, exec_control m temp hreset, rfl, fun hm => ⟨?mode, ?power, fun m' temp' => ?next⟩⟩⟩
  case mode => simp [buildFields, modeAndPower_of_not_recognized hm, Mode.off]
  case power => simp [buildFields, modeAndPower_of_not_recognized hm]
  case next =>
    obtain ⟨_, _, _, hoff⟩ := ne_of_not_recognized hm
    refine ⟨_, exec_control m' temp' hreset, ?_⟩
    simp [buildFields, modeAndPower_power_of_prev_ne_off hoff]

end Sys2Proof.Machine
end

section
/-! The frame encoder: the mode and power of a request (R67 to R70, R73), the temperature field (R71), and what the
built frames are (R65, R66, R74). -/

namespace Sys2Proof.Machine

/-! The three fields that `build` writes (R65). -/

theorem unpackFrame_build_mode (m : ModeCode) (temp : TempWord) (prev : ModeCode) :
    (unpackFrame (build m temp prev)).mode = (modeAndPower m prev).1 :=
  congrArg FrameFields.mode (unpackFrame_build m temp prev)

theorem unpackFrame_build_power (m : ModeCode) (temp : TempWord) (prev : ModeCode) :
    (unpackFrame (build m temp prev)).power = (modeAndPower m prev).2 :=
  congrArg FrameFields.power (unpackFrame_build m temp prev)

theorem unpackFrame_build_temperature (m : ModeCode) (temp : TempWord) (prev : ModeCode) :
    (unpackFrame (build m temp prev)).temperature = tempField temp :=
  congrArg FrameFields.temperature (unpackFrame_build m temp prev)

/-! The temperature field (R71). -/

theorem clamp_eq_max_min {α : Type} [LinearOrder α] [DecidableLT α] {lo hi : α} (hle : lo ≤ hi) (x : α) :
    clamp x lo hi = max lo (min x hi) := by
  unfold clamp
  split_ifs with hlo hhi
  · rw [min_eq_left (hlo.le.trans hle), max_eq_left hlo.le]
  · rw [min_eq_right hhi.le, max_eq_right hle]
  · rw [min_eq_left (not_lt.mp hhi), max_eq_right (not_lt.mp hlo)]

/-- A monotone function may be applied before the clamp or after it: the reason why the source's two orders of clamp
and round agree (90_conflicts.md C4), and why the clamp may be made on the port value. -/
theorem map_clamp_of_monotone {α β : Type} [LinearOrder α] [LinearOrder β] [DecidableLT α] [DecidableLT β] {f : α → β}
    (hf : Monotone f) {lo hi : α} (hle : lo ≤ hi) (x : α) : f (clamp x lo hi) = clamp (f x) (f lo) (f hi) := by
  rw [clamp_eq_max_min hle, clamp_eq_max_min (hf hle), hf.map_max, hf.map_min]

theorem clamp_eq_lo {α : Type} [LT α] [DecidableLT α] {x lo : α} (h : x < lo) (hi : α) : clamp x lo hi = lo :=
  if_pos h

theorem clamp_eq_hi {α : Type} [LinearOrder α] [DecidableLT α] {x lo hi : α} (hle : lo ≤ hi) (h : hi ≤ x) :
    clamp x lo hi = hi := by
  rw [clamp_eq_max_min hle, min_eq_right h, max_eq_right hle]

theorem roundHalfUp_mono : Monotone roundHalfUp :=
  Int.floor_mono.comp fun _ _ h => by gcongr

theorem roundHalfUp_intCast (n : ℤ) : roundHalfUp n = n := by
  rw [roundHalfUp, Int.floor_intCast_add, show ⌊(1 / 2 : ℚ)⌋ = 0 by norm_num, add_zero]

/-- An exact half rounds upward (R71; 92_eei_decisions.md D5). -/
theorem roundHalfUp_intCast_add_half (n : ℤ) : roundHalfUp (n + 1 / 2) = n + 1 := by
  rw [roundHalfUp, show (n + 1 / 2 + 1 / 2 : ℚ) = ((n + 1 : ℤ) : ℚ) by push_cast; ring, Int.floor_intCast]

/-- On a number of 1/256 degrees, rounding is the addition of `0x80` and the shift by 8 of R71. -/
theorem roundHalfUp_units (c : ℤ) : roundHalfUp ((c : ℚ) / 256) = (c + 0x80) / 256 := by
  have hsum : ((c : ℚ) / 256 + 1 / 2) = ((c + 0x80 : ℤ) : ℚ) / (256 : ℕ) := by push_cast; ring
  rw [roundHalfUp, hsum, Rat.floor_intCast_div_natCast]
  rfl

/-- The port value is clamped and rounded to what its number of degrees is (R47, R71). -/
theorem roundedTemp_eq_roundHalfUp (temp : TempWord) :
    roundedTemp temp = roundHalfUp (clamp (tempCelsius temp) 16 30) := by
  have hmono : Monotone fun c : ℤ => (c : ℚ) / 256 := fun _ _ h => by dsimp only; gcongr
  have hclamp : ((clamp (tempUnits temp) 0x1000 0x1E00 : ℤ) : ℚ) / 256 = clamp (tempCelsius temp) 16 30 :=
    (map_clamp_of_monotone hmono (by decide) (tempUnits temp)).trans (by norm_num [tempCelsius])
  rw [← hclamp, roundHalfUp_units]
  rfl

/-- `T - 15` fits the 4 bits of the field (R71, R75). -/
theorem toNat_tempField (temp : TempWord) : ((tempField temp).toNat : ℤ) = roundedTemp temp - 15 := by
  obtain ⟨hlo, hhi⟩ := roundedTemp_bounds temp
  simp only [tempField, Config.tempOffset, BitVec.toNat_ofInt]
  omega

theorem roundHalfUp_clamp (t : ℚ) : roundHalfUp (clamp t 16 30) = clamp (roundHalfUp t) 16 30 := by
  have h := map_clamp_of_monotone roundHalfUp_mono (show (16 : ℚ) ≤ 30 by norm_num) t
  rwa [show roundHalfUp 16 = 16 from roundHalfUp_intCast 16, show roundHalfUp 30 = 30 from roundHalfUp_intCast 30] at h

theorem tempFieldCelsius_eq_clamp_round (t : ℚ) : tempFieldCelsius t = clamp (roundHalfUp t) 16 30 - 15 :=
  congrArg (· - 15) (roundHalfUp_clamp t)

/-- Settles O10: the clamp commutes with the division by 256 and with the rounding, both being monotone; the corner
cases are those of the clamp. -/
theorem tempFieldClampsRoundsSubtracts : Obligations.TempFieldClampsRoundsSubtracts := by
  refine ⟨fun temp => ⟨?onDegrees, ?range⟩, fun m temp prev => ?field, tempFieldCelsius_eq_clamp_round,
    fun t ht => ?below, fun t ht => ?above, fun n hlo hhi => ?tie, by decide⟩
  case onDegrees => rw [toNat_tempField, roundedTemp_eq_roundHalfUp, tempFieldCelsius]
  case range =>
    have hfield := toNat_tempField temp
    have hbounds := roundedTemp_bounds temp
    omega
  case field => exact unpackFrame_build_temperature m temp prev
  case below =>
    rw [tempFieldCelsius, clamp_eq_lo ht]
    exact congrArg (· - 15) (roundHalfUp_intCast 16)
  case above =>
    rw [tempFieldCelsius, clamp_eq_hi (by norm_num) ht]
    exact congrArg (· - 15) (roundHalfUp_intCast 30)
  case tie =>
    rw [tempFieldCelsius_eq_clamp_round, roundHalfUp_intCast_add_half, clamp,
      if_neg (by omega), if_neg (by omega)]

/-! The arms of the request (R67 to R70, R73). -/

/-- The request is Cool, Heat or Auto: the three arms that can toggle the power (R73). -/
def requestsOn (m : ModeCode) : Prop := m = Mode.cool ∨ m = Mode.heat ∨ m = Mode.auto

theorem modeAndPower_of_requestsOn {m : ModeCode} (h : requestsOn m) (prev : ModeCode) :
    modeAndPower m prev = (m, if prev = Mode.off then 1 else 0) := by
  rcases h with rfl | rfl | rfl <;> rfl

theorem modeAndPower_of_not_requestsOn {m : ModeCode} (h : ¬ requestsOn m) (prev : ModeCode) :
    modeAndPower m prev = (Mode.off, 0) := by
  simp only [requestsOn, not_or] at h
  obtain ⟨hcool, hheat, hauto⟩ := h
  rw [modeAndPower, if_neg hcool, if_neg hheat, if_neg hauto]

/-- The previous mode matters only through whether it is Off (R74 (e)). -/
theorem modeAndPower_congr_prev {prev prev' : ModeCode} (h : prev = Mode.off ↔ prev' = Mode.off) (m : ModeCode) :
    modeAndPower m prev = modeAndPower m prev' := by
  simp only [modeAndPower, h]

/-- The arms of Cool, Heat and Auto: the mode as requested, and a power toggle exactly from Off (R67, R68, R69). -/
theorem build_of_requestsOn {m : ModeCode} (h : requestsOn m) (temp : TempWord) (prev : ModeCode) :
    (unpackFrame (build m temp prev)).mode = m ∧ ((unpackFrame (build m temp prev)).power = 1 ↔ prev = Mode.off) := by
  rw [unpackFrame_build_mode, unpackFrame_build_power, modeAndPower_of_requestsOn h]
  exact ⟨rfl, by simp⟩

/-- Settles O11, by whether the request is one of the three: if not, the power is 0. -/
theorem powerToggleOnlyFromOff : Obligations.PowerToggleOnlyFromOff := by
  intro m temp prev
  by_cases h : requestsOn m
  · exact (build_of_requestsOn h temp prev).2.trans (and_iff_right h).symm
  · rw [unpackFrame_build_power, modeAndPower_of_not_requestsOn h]
    exact iff_of_false (by decide) fun hon => h hon.1

/-- Settles O6: the arm of Cool (R67); the rule's examples are evaluated. -/
theorem coolRequestBuildsCool : Obligations.CoolRequestBuildsCool :=
  ⟨build_of_requestsOn (.inl rfl), by decide, by decide⟩

/-- Settles O7: the arm of Heat (R68); the rule's examples are evaluated. -/
theorem heatRequestBuildsHeat : Obligations.HeatRequestBuildsHeat :=
  ⟨build_of_requestsOn (.inr (.inl rfl)), by decide, by decide⟩

/-- Settles O8: the arm of Auto (R69); the rule's examples are evaluated. -/
theorem autoRequestBuildsAuto : Obligations.AutoRequestBuildsAuto :=
  ⟨build_of_requestsOn (.inr (.inr rfl)), by decide, by decide⟩

/-- Settles O9: any other request has the arm of Off, and the temperature field is written in every arm. -/
theorem otherRequestsBuildOff : Obligations.OtherRequestsBuildOff := by
  refine ⟨fun m temp prev hcool hheat hauto => ?_, by decide, by decide, by decide⟩
  have h : ¬ requestsOn m := by simp only [requestsOn, not_or]; exact ⟨hcool, hheat, hauto⟩
  rw [unpackFrame_build_mode, unpackFrame_build_power, modeAndPower_of_not_requestsOn h]
  exact ⟨rfl, rfl, unpackFrame_build_temperature m temp prev⟩

/-! What a built frame is (R65, R66, R74). -/

/-- Settles O4: the ports decode by `OP`, FE.BUILD is one assignment, and the fields of a built frame are
`buildFields`. -/
theorem feBuildWritesBuiltFrame : Obligations.FeBuildWritesBuiltFrame := by
  refine ⟨fun p hrst hop => ?decodes, fun s m temp prev => rfl, fun m temp prev => ⟨_, _, rfl, ?fields⟩, by decide⟩
  case decodes => simp [decode, decodePorts, hrst, hop]
  case fields => exact unpackFrame_build m temp prev

/-- The mask of the bits that no operand influences clears power, mode and temperature (R66). -/
theorem and_baseMask (f : FrameWord) :
    f &&& 0x03F87FFFF = packFrame { unpackFrame f with power := 0, mode := 0, temperature := 0 } := by
  apply BitVec.eq_of_getLsbD_eq
  intro i hi
  simp only [packFrame, unpackFrame, BitVec.getLsbD_and, BitVec.getLsbD_extractLsb', BitVec.getLsbD_append]
  interval_cases i <;> simp

/-- Settles O5: cleared of the three fields that `build` writes, the fields of a built frame are those of `base()`. -/
theorem baseFrameIsConstant : Obligations.BaseFrameIsConstant := by
  refine ⟨by decide, fun m temp prev => ?_⟩
  rw [and_baseMask, unpackFrame_build]
  rfl

/-- Settles O14: the arm of the request, whether the previous mode is Off, and the temperature field determine the
three fields that `build` writes. -/
theorem buildSeesOnlyItsClasses : Obligations.BuildSeesOnlyItsClasses := by
  intro m m' temp temp' prev prev' hprev hm htemp
  have harm : modeAndPower m prev = modeAndPower m' prev' := by
    rcases hm with rfl | ⟨hm, hm'⟩
    · exact modeAndPower_congr_prev hprev m
    · have hoff : ¬ requestsOn m := by simpa [requestsOn] using hm
      have hoff' : ¬ requestsOn m' := by simpa [requestsOn] using hm'
      rw [modeAndPower_of_not_requestsOn hoff, modeAndPower_of_not_requestsOn hoff']
  rw [build_eq_kindFrame, build_eq_kindFrame, harm, htemp]

/-! The buildable frames (R56, R74 (f)). -/

/-- The mode and power fields that `build` can write (R67 to R70), in the order of R74 (f). -/
def builtArms : List (ModeCode × BitVec 1) :=
  [(Mode.cool, 0), (Mode.cool, 1), (Mode.heat, 0), (Mode.heat, 1), (Mode.auto, 0), (Mode.auto, 1), (Mode.off, 0)]

theorem modeAndPower_mem_builtArms (m prev : ModeCode) : modeAndPower m prev ∈ builtArms := by
  revert m prev; decide

theorem exists_modeAndPower_of_mem_builtArms : ∀ a ∈ builtArms, ∃ m prev, modeAndPower m prev = a := by
  decide

theorem tempField_ne_zero (temp : TempWord) : tempField temp ≠ 0 := by
  intro hzero
  have hfield := toNat_tempField temp
  have hbounds := roundedTemp_bounds temp
  rw [hzero, show (0 : BitVec 4).toNat = 0 from rfl] at hfield
  omega

/-- Every field but 0 is that of a temperature: 16 to 30 degrees (R71). -/
theorem exists_tempField_of_ne_zero : ∀ t : BitVec 4, t ≠ 0 → ∃ temp, tempField temp = t := by
  have hsurj : ∀ t : BitVec 4, t ≠ 0 → tempField (BitVec.ofNat 16 ((t.toNat + 15) * 256)) = t := by decide
  exact fun t ht => ⟨_, hsurj t ht⟩

/-- The buildable frames, by their fields: an arm and a temperature field other than 0. -/
theorem buildable_iff_exists_kindFrame {f : FrameWord} :
    Buildable f ↔ ∃ a ∈ builtArms, ∃ t : BitVec 4, t ≠ 0 ∧ kindFrame a.1 a.2 t = f := by
  constructor
  · rintro ⟨m, temp, prev, rfl⟩
    exact ⟨_, modeAndPower_mem_builtArms m prev, _, tempField_ne_zero temp, (build_eq_kindFrame m temp prev).symm⟩
  · rintro ⟨a, ha, t, ht, rfl⟩
    obtain ⟨m, prev, rfl⟩ := exists_modeAndPower_of_mem_builtArms a ha
    obtain ⟨temp, rfl⟩ := exists_tempField_of_ne_zero t ht
    exact ⟨m, temp, prev, (build_eq_kindFrame m temp prev).symm⟩

/-- A frame of a kind as a number (R41, with the constant fields of R45). -/
theorem toNat_kindFrame (m : ModeCode) (p : BitVec 1) (t : BitVec 4) :
    (kindFrame m p t).toNat = p.toNat * 2 ^ 33 + m.toNat * 2 ^ 30 + 3 * 2 ^ 28 + t.toNat * 2 ^ 19 + 2 := by
  rw [kindFrame, toNat_packFrame]
  simp [baseFields, Config.fanField]

/-- The temperature field stands at bit 19 and is 0 in the frame without it (R41). -/
theorem kindFrame_eq_add (m : ModeCode) (p : BitVec 1) (t : BitVec 4) :
    kindFrame m p t = kindFrame m p 0 + BitVec.ofNat 34 (t.toNat * 2 ^ 19) := by
  have hframe := toNat_kindFrame m p t
  have hbound := (kindFrame m p t).isLt
  have hbase : (kindFrame m p 0).toNat = (kindFrame m p t).toNat - t.toNat * 2 ^ 19 := by
    have hzero := toNat_kindFrame m p 0
    have h0 : (0 : BitVec 4).toNat = 0 := rfl
    omega
  have hfield : (BitVec.ofNat 34 (t.toNat * 2 ^ 19)).toNat = t.toNat * 2 ^ 19 := by
    rw [BitVec.toNat_ofNat, Nat.mod_eq_of_lt (by omega)]
  apply BitVec.eq_of_toNat_eq
  rw [BitVec.toNat_add_of_lt (by omega)]
  omega

theorem exists_ne_zero_iff_exists_nat {P : Nat → Prop} :
    (∃ t : BitVec 4, t ≠ 0 ∧ P t.toNat) ↔ ∃ k, 1 ≤ k ∧ k ≤ 15 ∧ P k := by
  constructor
  · rintro ⟨t, ht, h⟩
    exact ⟨t.toNat, by bv_omega, by bv_omega, h⟩
  · rintro ⟨k, hlo, hhi, h⟩
    exact ⟨BitVec.ofNat 4 k, by bv_omega, by rwa [BitVec.toNat_ofNat, Nat.mod_eq_of_lt (by omega)]⟩

/-- The frames of one arm are its frame with temperature field 0 plus 1 to 15 times `2 ^ 19` (R74 (f)). -/
theorem exists_kindFrame_eq_iff (m : ModeCode) (p : BitVec 1) (f : FrameWord) :
    (∃ t : BitVec 4, t ≠ 0 ∧ kindFrame m p t = f) ↔
      ∃ k, 1 ≤ k ∧ k ≤ 15 ∧ f = kindFrame m p 0 + BitVec.ofNat 34 (k * 2 ^ 19) := by
  rw [← exists_ne_zero_iff_exists_nat (P := fun k => f = kindFrame m p 0 + BitVec.ofNat 34 (k * 2 ^ 19))]
  refine exists_congr fun t => and_congr_right fun _ => ?_
  rw [kindFrame_eq_add m p t, eq_comm]

/-- An arm and a temperature field. -/
abbrev BuildChoice := (ModeCode × BitVec 1) × BitVec 4

/-- The frame of an arm and a temperature field. -/
def BuildChoice.frame (c : BuildChoice) : FrameWord := kindFrame c.1.1 c.1.2 c.2

/-- The choices that `build` makes: one of seven arms and one of 15 temperature fields. -/
def builtChoices : Finset BuildChoice := builtArms.toFinset ×ˢ Finset.univ.erase 0

theorem card_builtChoices : builtChoices.card = 105 := by
  rw [builtChoices, Finset.card_product]
  decide

theorem BuildChoice.frame_injective : Function.Injective BuildChoice.frame := by
  intro c c' h
  obtain ⟨hmode, hpower, htemp⟩ := kindFrame_inj.mp h
  exact Prod.ext (Prod.ext hmode hpower) htemp

theorem setOf_buildable_eq_image : {f : FrameWord | Buildable f} = BuildChoice.frame '' builtChoices := by
  ext f
  simp [buildable_iff_exists_kindFrame, builtChoices, BuildChoice.frame, and_assoc]

/-- Settles O15: the seven frames are those of the seven arms with temperature field 0, and different choices of arm
and temperature give different frames. -/
theorem exactlyTheBuildableFrames : Obligations.ExactlyTheBuildableFrames := by
  refine ⟨fun f => ?frames, ?count⟩
  case frames =>
    have hbases : ([0x070000002, 0x270000002, 0x0B0000002, 0x2B0000002, 0x0F0000002, 0x2F0000002, 0x1F0000002] :
        List FrameWord) = builtArms.map fun a => kindFrame a.1 a.2 0 := by decide
    rw [buildable_iff_exists_kindFrame, hbases]
    simp only [exists_kindFrame_eq_iff, List.mem_map, exists_exists_and_eq_and]
  case count =>
    rw [setOf_buildable_eq_image, Set.ncard_image_of_injective _ BuildChoice.frame_injective, Set.ncard_coe_finset,
      card_builtChoices]

end Sys2Proof.Machine
end

section
/-! The micro-steps one at a time (R81 to R89), what a step fetches for them (R17, R50), and the order in which the
sequencer runs them (R95). -/

namespace Sys2Proof.Machine

/-! What a step fetches (R17, R50). -/

/-- A step that fetches the word of an instruction runs it. -/
theorem decode_fetch_of_encode {s : State} {i : Instr} (h : s.fetch = encode i) : decode s.fetch = .ok i :=
  h ▸ decodeOfEncode i

theorem decode_fetch_header {s : State} (h : s.phase = .header) : decode s.fetch = .ok .peHeader :=
  decode_fetch_of_encode (by simp [State.fetch, h, Phase.code, encode])

theorem decode_fetch_trail {s : State} (h : s.phase = .trail) : decode s.fetch = .ok .peTrail :=
  decode_fetch_of_encode (by simp [State.fetch, h, Phase.code, encode])

theorem decode_fetch_footer {s : State} (h : s.phase = .footer) : decode s.fetch = .ok .peFooter :=
  decode_fetch_of_encode (by simp [State.fetch, h, Phase.code, encode])

/-- The bit step that `NEXT_TYPE` and the frame bit select (R50). -/
def selectedStep : PulseType → Bool → Instr
  | .space, false => .peStepS0
  | .space, true => .peStepS1
  | .mark, false => .peStepM0
  | .mark, true => .peStepM1

theorem encode_selectedStep (nt : PulseType) (b : Bool) :
    encode (selectedStep nt b) = .step2 (nt.bit ++ BitVec.ofBool b) := by
  cases nt <;> cases b <;> rfl

theorem decode_fetch_bits {s : State} (h : s.phase = .bits) :
    decode s.fetch = .ok (selectedStep s.nextType s.currentBit) :=
  decode_fetch_of_encode (by simp [State.fetch, h, encode_selectedStep, State.stepSelector])

/-- In phase BITS the step is the bit step selected by `NEXT_TYPE` and the frame bit (R82 to R85). -/
theorem step_of_selected {s : State} {nt : PulseType} {b : Bool} (hphase : s.phase = .bits)
    (hnt : s.nextType = nt) (hb : s.currentBit = b) : step s = exec (selectedStep nt b) s :=
  hnt ▸ hb ▸ step_of_decode (decode_fetch_bits hphase)

/-- Settles O45: `step` is `fetch`, `decode` and `exec`; each phase but BITS fetches one word. -/
theorem stepRunsTheDecodedInstruction : Obligations.StepRunsTheDecodedInstruction := by
  refine ⟨fun s i => step_of_decode, fun s why => step_of_reject, fun s p hs => ?presented, fun s hphase hcall => ?send,
    fun s => decode_fetch_header, fun s => decode_fetch_trail, fun s => decode_fetch_footer⟩
  case presented => exact State.fetch_between (s := s.present p) hs
  case send => exact decode_fetch_of_encode (i := .txSend 0) (State.fetch_txCall hphase hcall)

/-! The bit steps (R82 to R85). -/

/-- `advance()` as one assignment (R95). -/
theorem State.advance_eq (s : State) :
    s.advance = { s with
      phase := if s.bitIdx = 0 then .trail else s.phase
      bitIdx := if s.bitIdx = 0 then 0 else s.bitIdx - 1 } := by
  unfold State.advance
  split
  · next hzero => simp [State.setSeq, hzero]
  · rfl

theorem State.txEmit_txEmit (s : State) (d e : TxEvent) :
    (s.txEmit d).txEmit e = { s with tx := s.tx ++ [d, e] } := by
  simp [State.txEmit]

/-- The header's 3 units are pending at the first bit, 1 unit at every other (R91 (a)). -/
theorem pending_of_seqInvariant_bits {s : State} (h : seqInvariant s) (hphase : s.phase = .bits) :
    s.pending = if s.bitIdx = 33 then 3 else 1 := by
  simp only [seqInvariant, hphase] at h
  obtain ⟨_, _, ⟨hidx, hpending, _⟩ | ⟨hidx, hpending, _⟩⟩ := h
  · rw [if_pos hidx, hpending]
  · have hne : s.bitIdx ≠ 33 := by bv_omega
    rw [if_neg hne, hpending]

/-- A mark is pending only after the first bit, so it has 1 unit (R91 (a)). -/
theorem pending_of_seqInvariant_mark {s : State} (h : seqInvariant s) (hphase : s.phase = .bits)
    (hmark : s.nextType = .mark) : s.pending = 1 := by
  simp only [seqInvariant, hphase] at h
  obtain ⟨_, _, ⟨_, _, hspace⟩ | ⟨_, hpending, _⟩⟩ := h
  · simp [hmark] at hspace
  · exact hpending

/-- Settles O20: the selector is `{Space, 1}`, and the micro-step is its assignments. -/
theorem stepS1ExtendsTheSpace : Obligations.StepS1ExtendsTheSpace :=
  ⟨fun _ => step_of_selected, fun _ => congrArg _ (State.advance_eq _), fun _ => pending_of_seqInvariant_bits⟩

/-- Settles O21: the selector is `{Space, 0}`, and the micro-step is its assignments. -/
theorem stepS0InsertsAMark : Obligations.StepS0InsertsAMark := by
  refine ⟨fun _ => step_of_selected, fun s => ?_, fun _ => pending_of_seqInvariant_bits⟩
  simp only [exec, execPeStepS0, State.stepS0, State.txEmit_txEmit, State.advance_eq]
  rfl

/-- Settles O22: the selector is `{Mark, 1}`, and the micro-step is its assignments. -/
theorem stepM1InsertsASpace : Obligations.StepM1InsertsASpace := by
  refine ⟨fun _ => step_of_selected, fun s => ?_, fun _ => pending_of_seqInvariant_mark⟩
  simp only [exec, execPeStepM1, State.stepM1, State.txEmit_txEmit, State.advance_eq]
  rfl

/-- Settles O23: the selector is `{Mark, 0}`, and the micro-step is its assignments. -/
theorem stepM0ExtendsTheMark : Obligations.StepM0ExtendsTheMark :=
  ⟨fun _ => step_of_selected, fun _ => congrArg _ (State.advance_eq _), fun _ => pending_of_seqInvariant_mark⟩

/-! Header, trail and footer (R81, R87, R89). -/

/-- Settles O19: the pending space of 3 units grows by one exactly if the first bit is 1. -/
theorem headerOpensRepetition : Obligations.HeaderOpensRepetition := by
  refine ⟨fun s h => step_of_decode (decode_fetch_header h), fun s => rfl, fun f => ?_⟩
  rw [repetition_eq, bitsBelow, bitRun_cons]
  cases f.getLsbD 33 <;> simp [pulseStep]

theorem State.trail_of_rep_eq {s : State} (h : s.rep = 2) :
    s.trail = { s with tx := s.tx ++ [.space s.pending.toNat], phase := .footer } :=
  if_pos h

theorem State.trail_of_rep_ne {s : State} (h : s.rep ≠ 2) :
    s.trail = { s with tx := s.tx ++ [.space s.pending.toNat], rep := s.rep + 1, phase := .header } :=
  if_neg h

/-- Settles O25: `REP` decides where the trail leads, and the invariant says what is pending. -/
theorem trailClosesRepetition : Obligations.TrailClosesRepetition := by
  refine ⟨fun s h => step_of_decode (decode_fetch_trail h), fun s h => congrArg _ (State.trail_of_rep_eq h),
    fun s h => congrArg _ (State.trail_of_rep_ne h), fun s h hphase => ?_⟩
  simp only [seqInvariant, hphase] at h
  obtain ⟨_, _, _, hpending, _⟩ := h
  exact hpending

/-- A repetition ends with one unit of space (R87, R88). -/
theorem exists_repetition_eq_append_space (f : FrameWord) : ∃ l, repetition f = l ++ [.space 1] :=
  ⟨.mark 3 :: (bitRun (bitsBelow f 34) 3 .space).1, repetition_eq f⟩

/-- Settles O26: the footer comes after the third repetition, which ends with one unit of space. -/
theorem footerEndsTransmission : Obligations.FooterEndsTransmission := by
  refine ⟨fun s => rfl, fun s h => step_of_decode (decode_fetch_footer h), fun f => ?_⟩
  obtain ⟨l, hl⟩ := exists_repetition_eq_append_space f
  refine ⟨repetition f ++ repetition f ++ l, ?_⟩
  calc pulses f = repetition f ++ repetition f ++ (l ++ [.space 1]) ++ [.mark 4] := by rw [← hl]; rfl
    _ = repetition f ++ repetition f ++ l ++ [.space 1, .mark 4] := by simp

/-! The sequencer's order (R95). -/

/-- `PHASE` after `k` micro-steps of a transmission: 36 a repetition, then the footer. -/
def phaseAt (k : Nat) : Phase :=
  if k = 108 then .footer else if k % 36 = 0 then .header else if k % 36 = 35 then .trail else .bits

/-- `REP` after `k` micro-steps of a transmission. -/
def repAt (k : Nat) : BitVec 2 := if k = 108 then 2 else BitVec.ofNat 2 (k / 36)

/-- The sequencer stands where `k` micro-steps of a transmission of `f` leave it (R95). -/
structure AtPosition (f : FrameWord) (k : Nat) (t : State) : Prop where
  frame : t.frame = f
  phase : t.phase = phaseAt k
  rep : t.rep = repAt k
  bitIdx : 1 ≤ k % 36 → k % 36 ≤ 34 → t.bitIdx = BitVec.ofNat 6 (34 - k % 36)

theorem phaseAt_of_bits {k : Nat} (hlo : 1 ≤ k % 36) (hhi : k % 36 ≤ 34) : phaseAt k = .bits := by
  rw [phaseAt, if_neg (by omega), if_neg (by omega), if_neg (by omega)]

/-- `REP` changes only where a repetition ends. -/
theorem repAt_succ {k : Nat} (hk : k < 108) (h : (k + 1) % 36 ≠ 0) : repAt (k + 1) = repAt k := by
  rw [repAt, repAt, if_neg (by omega), if_neg (by omega), show (k + 1) / 36 = k / 36 by omega]

section
variable {f : FrameWord} {k : Nat} {t : State}

theorem AtPosition.header (h : AtPosition f k t) (hk : k < 108) (hr : k % 36 = 0) : AtPosition f (k + 1) t.header where
  frame := h.frame
  phase := (phaseAt_of_bits (by omega) (by omega)).symm
  rep := h.rep.trans (repAt_succ hk (by omega)).symm
  bitIdx _ _ := by rw [show 34 - (k + 1) % 36 = 33 by omega]; rfl

/-- The last of the 34 bits leads to the trail, every other to the bit below it. -/
theorem AtPosition.bitStep (h : AtPosition f k t) (hk : k < 108) (hlo : 1 ≤ k % 36)
    (hhi : k % 36 ≤ 34) : AtPosition f (k + 1) t.bitStep := by
  have hidx := h.bitIdx hlo hhi
  have hzero : t.bitIdx = 0 ↔ k % 36 = 34 := by rw [hidx]; bv_omega
  refine ⟨t.bitStep_frame.trans h.frame, ?phase, ?rep, fun _ hhi' => ?bitIdx⟩
  case phase =>
    rw [State.bitStep_phase, h.phase, phaseAt_of_bits hlo hhi]
    by_cases hlast : k % 36 = 34
    · rw [if_pos (hzero.mpr hlast), phaseAt, if_neg (by omega), if_neg (by omega), if_pos (by omega)]
    · rw [if_neg (mt hzero.mp hlast), phaseAt_of_bits (by omega) (by omega)]
  case rep => rw [State.bitStep_rep, h.rep, repAt_succ hk (by omega)]
  case bitIdx =>
    have hmore : ¬ t.bitIdx = 0 := by rw [hzero]; omega
    rw [State.bitStep_bitIdx, if_neg hmore, hidx]
    bv_omega

/-- The third repetition leads to the footer, every other to the next header. -/
theorem AtPosition.trail (h : AtPosition f k t) (hk : k < 108) (hr : k % 36 = 35) : AtPosition f (k + 1) t.trail := by
  have hrep : t.rep = BitVec.ofNat 2 (k / 36) := h.rep.trans (if_neg (by omega))
  by_cases hlast : k = 107
  · subst hlast
    rw [State.trail_of_rep_eq hrep]
    exact ⟨h.frame, rfl, hrep, fun hlo _ => absurd hlo (by decide)⟩
  · have hne : t.rep ≠ 2 := by rw [hrep]; bv_omega
    rw [State.trail_of_rep_ne hne]
    refine ⟨h.frame, ?phase, ?rep, fun hlo _ => absurd hlo (by omega)⟩
    case phase => rw [phaseAt, if_neg (by omega), if_pos (by omega)]
    case rep =>
      rw [repAt, if_neg (by omega), hrep, show (k + 1) / 36 = k / 36 + 1 by omega]
      exact (BitVec.ofNat_add _ _).symm

/-- Each micro-step before the footer moves the sequencer on by one position. -/
theorem AtPosition.microStep (h : AtPosition f k t) (hk : k < 108) : AtPosition f (k + 1) t.microStep := by
  have hphase := h.phase
  unfold phaseAt at hphase
  rw [if_neg (by omega)] at hphase
  unfold State.microStep
  split_ifs at hphase with hheader htrail <;> rw [hphase]
  · exact h.header hk hheader
  · exact h.trail hk htrail
  · exact h.bitStep hk (by omega) (by omega)

theorem AtPosition.not_idle (h : AtPosition f k t) : t.phase ≠ .idle := by
  rw [h.phase]
  unfold phaseAt
  split_ifs <;> decide

/-- `n` steps are `n` micro-steps in the fixed order. -/
theorem AtPosition.run (n : Nat) (h : AtPosition f k t) (hk : k + n ≤ 108) :
    ∃ u, Sys2Proof.core.run n t = .next u ∧ AtPosition f (k + n) u := by
  induction n generalizing k t with
  | zero => exact ⟨t, rfl, h⟩
  | succ n ih =>
    rw [run_succ_of_not_idle n h.not_idle, show k + (n + 1) = k + 1 + n by omega]
    exact ih (h.microStep (by omega)) (by omega)

/-- The position of a bit step is the frame bit it consumes. -/
theorem AtPosition.currentBit (h : AtPosition f k t) (hphase : t.phase = .bits) :
    t.currentBit = f.getLsbD (34 - k % 36) := by
  have hbits : phaseAt k = .bits := h.phase.symm.trans hphase
  unfold phaseAt at hbits
  split_ifs at hbits with hfooter hheader htrail
  have hidx := h.bitIdx (by omega) (by omega)
  rw [State.currentBit, h.frame, hidx, BitVec.toNat_ofNat, Nat.mod_eq_of_lt (by omega)]

end

/-- Three repetitions of the sequencer, from the first header (R95). -/
theorem State.runToIdle_three_reps {s : State} (hphase : s.phase = .header) (hrep : s.rep = 0) (k : Nat) :
    s.runToIdle (108 + k) = s.afterRep.afterRep.afterRep.runToIdle k := by
  rw [show 108 + k = 36 + (36 + (36 + k)) by omega, State.runToIdle_rep _ s hphase,
    State.runToIdle_rep _ _ (by simp [State.afterRep, hrep]),
    State.runToIdle_rep _ _ (by simp [State.afterRep, hrep])]

theorem State.afterRep_three_phase {s : State} (hrep : s.rep = 0) : s.afterRep.afterRep.afterRep.phase = .footer := by
  simp [State.afterRep, hrep]

/-- The 109 micro-steps of a transmission are three repetitions and the footer (R95). -/
theorem run_109_of_header {s : State} (hphase : s.phase = .header) (hrep : s.rep = 0) :
    Sys2Proof.core.run 109 s = .next s.afterRep.afterRep.afterRep.footer := by
  have hfooter := State.afterRep_three_phase hrep
  have hbusy : (s.runToIdle 108).phase ≠ .idle := by
    rw [State.runToIdle_three_reps hphase hrep 0, State.runToIdle, hfooter]
    decide
  calc Sys2Proof.core.run 109 s
      = .next (s.runToIdle 109) := run_eq_runToIdle 108 0 s hbusy
    _ = .next s.afterRep.afterRep.afterRep.footer := by
      rw [State.runToIdle_three_reps hphase hrep 1, State.runToIdle_step 0 _ (by simp [hfooter]), State.runToIdle,
        State.microStep, hfooter]

/-- Settles O29: the position is kept step by step, and the 109 micro-steps are three repetitions and the footer. -/
theorem sequencerRunsTheMicroSteps : Obligations.SequencerRunsTheMicroSteps := by
  intro s hphase hrep
  have hstart : AtPosition s.frame 0 s := ⟨rfl, hphase, hrep, fun hlo _ => absurd hlo (by decide)⟩
  refine ⟨fun k hk => ?positions, _, run_109_of_header hphase hrep, rfl, ?pulses, rfl, rfl, rfl, rfl⟩
  case positions =>
    obtain ⟨t, hrun, ht⟩ := hstart.run k (by omega)
    rw [Nat.zero_add] at ht
    refine ⟨t, hrun, ht.phase, ht.bitIdx, ht.rep, decode_fetch_header, fun hbits => ?_, decode_fetch_trail,
      decode_fetch_footer⟩
    rw [decode_fetch_bits hbits, ht.currentBit hbits]
    rfl
  case pulses => simp [State.footer, State.afterRep, pulses, Config.footerMark]

end Sys2Proof.Machine
end

section
/-! The waveform: the line code of a repetition (R92), its alternation, duration and number of pulses (R94), the
pulses that occur (R91), frames whose bit 0 is 1 (R93), and PE.ENCODE (R90). -/

namespace Sys2Proof.Machine

theorem pulses_eq (f : FrameWord) :
    pulses f = repetition f ++ repetition f ++ repetition f ++ [.mark 4] :=
  rfl

/-! The line code (R92). -/

/-- Run-length encoding reads the two level units of a bit as the bit step does: the case table of R86. -/
theorem runLengthFrom_bitLevels (p : Nat) (nt : PulseType) (b : Bool) (rest : List PulseType) :
    runLengthFrom nt p (bitLevels b ++ rest) =
      (pulseStep p nt b).1 ++ runLengthFrom (pulseStep p nt b).2.2 1 rest := by
  cases nt <;> cases b <;> rfl

/-- The bit run is the run-length encoding of the levels of its bits, but for the pulse left pending (R86, R92). -/
theorem runLengthFrom_flatMap_bitLevels (bs : List Bool) (p : Nat) (nt : PulseType) :
    runLengthFrom nt p (bs.flatMap bitLevels) =
      (bitRun bs p nt).1 ++ [pulseOf (bitRun bs p nt).2.2 (bitRun bs p nt).2.1] := by
  induction bs generalizing p nt with
  | nil => rfl
  | cons b rest ih => rw [List.flatMap_cons, runLengthFrom_bitLevels, ih, bitRun_cons, List.append_assoc]

/-- Settles O30: the pulse left pending is a space where bit 0 is 0, as the trail sends it. -/
theorem repetitionIsTheLineCode : Obligations.RepetitionIsTheLineCode := by
  intro f heven
  have hpending := bitRun_bitsBelow_pending f 33 3 .space
  have htype := bitRun_bitsBelow_nextType f 33 3 .space
  rw [heven] at htype
  calc repetition f
      = .mark 3 :: ((bitRun (bitsBelow f 34) 3 .space).1 ++ [.space 1]) := repetition_eq f
    _ = .mark 3 :: runLengthFrom .space 3 ((bitsBelow f 34).flatMap bitLevels) := by
      rw [runLengthFrom_flatMap_bitLevels, hpending, htype]; rfl
    _ = runLength (levels f) := rfl

/-! The pulses that occur (R91). -/

/-- A pulse of 1 to 4 units (R51, R91 (c)). -/
def ShortPulse (e : TxEvent) : Prop := ∃ n, 1 ≤ n ∧ n ≤ 4 ∧ (e = .space n ∨ e = .mark n)

theorem ShortPulse.isPulse {e : TxEvent} (h : ShortPulse e) : e.pulseType.isSome = true := by
  obtain ⟨n, _, _, rfl | rfl⟩ := h <;> rfl

theorem ShortPulse.units {e : TxEvent} (h : ShortPulse e) : 1 ≤ e.units ∧ e.units ≤ 4 := by
  obtain ⟨n, hlo, hhi, rfl | rfl⟩ := h <;> exact ⟨hlo, hhi⟩

theorem ShortPulse.produced {e : TxEvent} (h : ShortPulse e) : e.produced = true := by
  obtain ⟨n, hlo, hhi, rfl | rfl⟩ := h <;> exact decide_eq_true ⟨hlo, hhi⟩

theorem shortPulse_space {n : Nat} (hlo : 1 ≤ n) (hhi : n ≤ 4) : ShortPulse (.space n) := ⟨n, hlo, hhi, .inl rfl⟩

theorem shortPulse_mark {n : Nat} (hlo : 1 ≤ n) (hhi : n ≤ 4) : ShortPulse (.mark n) := ⟨n, hlo, hhi, .inr rfl⟩

/-- A bit step sends the pending pulse, which it lengthens by at most one unit, and pulses of one unit (R86). -/
theorem shortPulse_of_mem_pulseStep {p : Nat} (hlo : 1 ≤ p) (hhi : p ≤ 3) (nt : PulseType) (b : Bool) :
    ∀ e ∈ (pulseStep p nt b).1, ShortPulse e := by
  have hlonger : p + 1 ≤ 4 := by omega
  have hsame : p ≤ 4 := by omega
  cases nt <;> cases b <;> simp [pulseStep, shortPulse_space, shortPulse_mark, hlo, hsame, hlonger]

theorem shortPulse_of_mem_bitRun (bs : List Bool) {p : Nat} (hlo : 1 ≤ p) (hhi : p ≤ 3) (nt : PulseType) :
    ∀ e ∈ (bitRun bs p nt).1, ShortPulse e := by
  induction bs generalizing p nt with
  | nil => simp [bitRun]
  | cons b rest ih =>
    rw [bitRun_cons]
    exact List.forall_mem_append.mpr ⟨shortPulse_of_mem_pulseStep hlo hhi nt b, ih le_rfl (by decide) _⟩

theorem shortPulse_of_mem_repetition (f : FrameWord) : ∀ e ∈ repetition f, ShortPulse e := by
  rw [repetition_eq, List.forall_mem_cons, List.forall_mem_append, List.forall_mem_singleton]
  exact ⟨shortPulse_mark (by decide) (by decide), shortPulse_of_mem_bitRun _ (by decide) (by decide) _,
    shortPulse_space (by decide) (by decide)⟩

theorem shortPulse_of_mem_pulses (f : FrameWord) : ∀ e ∈ pulses f, ShortPulse e := by
  have hrep := shortPulse_of_mem_repetition f
  simp only [pulses_eq, List.forall_mem_append, List.forall_mem_singleton]
  exact ⟨⟨⟨hrep, hrep⟩, hrep⟩, shortPulse_mark (by decide) (by decide)⟩

theorem produced_of_mem_events (f : FrameWord) : ∀ e ∈ events f, e.produced = true := by
  simp only [events, List.forall_mem_append]
  exact ⟨⟨by decide, fun e he => (shortPulse_of_mem_pulses f e he).produced⟩, by decide⟩

/-- Settles O34: pulses have 1 to 4 units, and the block hands over no event but those of R51. -/
theorem durationsAreOneToFour : Obligations.DurationsAreOneToFour :=
  fun f => ⟨fun e he => (shortPulse_of_mem_pulses f e he).units,
    fun e he => word_mem_emittedWords (produced_of_mem_events f e he)⟩

/-! Durations (R94 (b)). -/

@[simp] theorem totalUnits_nil : totalUnits [] = 0 := rfl

@[simp] theorem totalUnits_cons (e : TxEvent) (l : List TxEvent) : totalUnits (e :: l) = e.units + totalUnits l := by
  simp [totalUnits]

@[simp] theorem totalUnits_append (l l' : List TxEvent) : totalUnits (l ++ l') = totalUnits l + totalUnits l' := by
  simp [totalUnits]

@[simp] theorem units_space (n : Nat) : (TxEvent.space n).units = n := rfl
@[simp] theorem units_mark (n : Nat) : (TxEvent.mark n).units = n := rfl

/-- A bit takes two units; of what was pending and those, all but the unit left pending is sent (R86). -/
theorem totalUnits_pulseStep (p : Nat) (nt : PulseType) (b : Bool) :
    totalUnits (pulseStep p nt b).1 + 1 = p + 2 := by
  cases nt <;> cases b <;> simp [pulseStep]

theorem totalUnits_bitRun (bs : List Bool) (p : Nat) (nt : PulseType) :
    totalUnits (bitRun bs p nt).1 + (bitRun bs p nt).2.1 = p + 2 * bs.length := by
  induction bs generalizing p nt with
  | nil => simp [bitRun]
  | cons b rest ih =>
    have hstep := totalUnits_pulseStep p nt b
    have hrest := ih 1 (pulseStep p nt b).2.2
    simp only [bitRun_cons, totalUnits_append, List.length_cons]
    omega

theorem length_bitsBelow (f : FrameWord) (n : Nat) : (bitsBelow f n).length = n := by
  induction n with
  | zero => rfl
  | succ n ih => simp [bitsBelow, ih]

/-- Whatever the frame: 3 units of header mark, 3 of space, and 34 bits of two units (R93, R94 (b)). -/
theorem totalUnits_repetition (f : FrameWord) : totalUnits (repetition f) = 74 := by
  have hrun := totalUnits_bitRun (bitsBelow f 34) 3 .space
  rw [bitRun_bitsBelow_pending, length_bitsBelow] at hrun
  simp only [repetition_eq, totalUnits_cons, totalUnits_append, totalUnits_nil, units_mark, units_space]
  omega

theorem totalUnits_pulses (f : FrameWord) : totalUnits (pulses f) = 226 := by
  simp [pulses_eq, totalUnits_repetition]

/-- `Begin`, `Carrier` and `Send` take no time (R51). -/
theorem totalUnits_events (f : FrameWord) : totalUnits (events f) = 226 := by
  simp [events, totalUnits_pulses, TxEvent.units]

/-- Settles O32: every bit adds two units, and no other event than a pulse has a length. -/
theorem transmissionLasts226Units : Obligations.TransmissionLasts226Units := by
  refine fun f => ⟨totalUnits_repetition f, totalUnits_pulses f, fun timeUnit => ?_⟩
  have hlength : physicalLength timeUnit (events f) = 226 * timeUnit.seconds := by
    rw [physicalLength, totalUnits_events]; norm_num
  exact ⟨hlength, hlength ▸ mul_pos (by norm_num) timeUnit.positive⟩

/-! Alternation (R94 (a)). -/

theorem pulseType_pulseOf (t : PulseType) (n : Nat) : (pulseOf t n).pulseType = some t := by
  cases t <;> rfl

theorem head?_runLengthFrom (t : PulseType) (n : Nat) (l : List PulseType) :
    ∃ m, (runLengthFrom t n l).head? = some (pulseOf t m) := by
  induction l generalizing n with
  | nil => exact ⟨n, rfl⟩
  | cons u rest ih =>
    unfold runLengthFrom
    split_ifs with hsame
    · exact ih (n + 1)
    · exact ⟨n, rfl⟩

/-- A run-length encoding alternates: a run ends where the level changes. -/
theorem alternates_runLengthFrom (t : PulseType) (n : Nat) (l : List PulseType) :
    alternates (runLengthFrom t n l) := by
  induction l generalizing t n with
  | nil => exact List.isChain_singleton _
  | cons u rest ih =>
    unfold runLengthFrom
    split_ifs with hsame
    · exact ih t (n + 1)
    · refine List.isChain_cons.mpr ⟨fun e he => ?_, ih u 1⟩
      obtain ⟨m, hm⟩ := head?_runLengthFrom u 1 rest
      obtain rfl : pulseOf u m = e := by simpa [hm] using he
      simpa [pulseType_pulseOf] using Ne.symm hsame

theorem alternates_repetition {f : FrameWord} (heven : f.getLsbD 0 = false) : alternates (repetition f) := by
  rw [repetitionIsTheLineCode f heven]
  exact alternates_runLengthFrom .mark 1 _

theorem head?_repetition (f : FrameWord) : (repetition f).head? = some (.mark 3) := by
  rw [repetition_eq]; rfl

theorem getLast?_repetition (f : FrameWord) : (repetition f).getLast? = some (.space 1) := by
  rw [repetition_eq, ← List.cons_append, List.getLast?_append]; rfl

/-- Alternating lists join where the last pulse of the one and the first of the other differ in type. -/
theorem alternates_append {l l' : List TxEvent} {d e : TxEvent} (hl : alternates l) (hl' : alternates l')
    (hd : l.getLast? = some d) (he : l'.head? = some e) (hne : d.pulseType ≠ e.pulseType) :
    alternates (l ++ l') := by
  refine List.isChain_append.mpr ⟨hl, hl', fun x hx y hy => ?_⟩
  obtain rfl : d = x := by simpa [hd] using hx
  obtain rfl : e = y := by simpa [he] using hy
  exact hne

/-- Settles O31: each repetition is a run-length encoding, and a mark follows the space with which it ends. -/
theorem pulsesAlternate : Obligations.PulsesAlternate := by
  intro f heven
  have hrep := alternates_repetition heven
  have hhead := head?_repetition f
  have hlast := getLast?_repetition f
  have hjoin : (TxEvent.space 1).pulseType ≠ (TxEvent.mark 3).pulseType := by decide
  have hfooter : alternates (repetition f ++ [.mark 4]) :=
    alternates_append (e := .mark 4) hrep (List.isChain_singleton _) hlast rfl (by decide)
  have hthird : alternates (repetition f ++ (repetition f ++ [.mark 4])) :=
    alternates_append hrep hfooter hlast (by simp [hhead]) hjoin
  have hall : alternates (pulses f) := by
    rw [pulses_eq, List.append_assoc, List.append_assoc]
    exact alternates_append hrep hthird hlast (by simp [hhead]) hjoin
  refine ⟨fun e he => (shortPulse_of_mem_pulses f e he).isPulse, hall, ?_, ?_⟩
  · simp [pulses_eq, hhead]
  · simp [pulses_eq]

/-! The number of pulses (R94 (c)). -/

/-- `E` of R94 (c) over the `n` lowest pairs of neighbouring bits. -/
def equalNeighboursBelow (f : FrameWord) (n : Nat) : Nat :=
  ((List.range n).filter fun j => f.getLsbD j == f.getLsbD (j + 1)).length

theorem equalNeighboursBelow_succ (f : FrameWord) (n : Nat) :
    equalNeighboursBelow f (n + 1) = equalNeighboursBelow f n + if f.getLsbD n = f.getLsbD (n + 1) then 1 else 0 := by
  rw [equalNeighboursBelow, List.range_succ, List.filter_append, List.length_append, ← equalNeighboursBelow]
  split_ifs with hsame <;> simp [hsame]

theorem equalNeighbours_eq (f : FrameWord) : equalNeighbours f = equalNeighboursBelow f 33 := rfl

/-- A bit step sends one pulse where the bit's first half has the pending type, and else two (R86). -/
theorem length_pulseStep (p : Nat) (nt : PulseType) (b : Bool) :
    (pulseStep p nt b).1.length = 1 + if nt = (if b then .mark else .space) then 1 else 0 := by
  cases nt <;> cases b <;> rfl

/-- After the bit above them, `n` bits make a pulse each, and one more for each pair of equal neighbours. -/
theorem length_bitRun_bitsBelow (f : FrameWord) (n p : Nat) :
    (bitRun (bitsBelow f n) p (if f.getLsbD n then .mark else .space)).1.length = n + equalNeighboursBelow f n := by
  induction n generalizing p with
  | zero => rfl
  | succ n ih =>
    have hsame : ((if f.getLsbD (n + 1) then .mark else .space : PulseType) = if f.getLsbD n then .mark else .space) ↔
        f.getLsbD n = f.getLsbD (n + 1) := by
      cases f.getLsbD n <;> cases f.getLsbD (n + 1) <;> decide
    rw [bitsBelow, bitRun_cons, List.length_append, length_pulseStep, pulseStep_nextType, ih,
      equalNeighboursBelow_succ]
    simp only [hsame]
    omega

/-- A repetition has two pulses around its bit run, whose first bit finds a space pending (R94 (c)). -/
theorem length_repetition (f : FrameWord) :
    (repetition f).length = 36 + topBitClear f + equalNeighbours f := by
  have hfirst : (pulseStep 3 .space (f.getLsbD 33)).1.length = 1 + topBitClear f := by
    unfold topBitClear
    cases f.getLsbD 33 <;> rfl
  have hrest := length_bitRun_bitsBelow f 33 1
  rw [repetition_eq, bitsBelow, bitRun_cons, pulseStep_nextType]
  simp only [List.length_cons, List.length_append, List.length_nil, hfirst, hrest, equalNeighbours_eq]
  omega

/-- Unequal neighbours change the bit: the two end bits of `n` pairs agree when an even number of pairs is unequal. -/
theorem equalNeighboursBelow_parity (f : FrameWord) (n : Nat) :
    (equalNeighboursBelow f n + n) % 2 = 0 ↔ f.getLsbD n = f.getLsbD 0 := by
  induction n with
  | zero => simp [equalNeighboursBelow]
  | succ n ih =>
    rw [equalNeighboursBelow_succ]
    by_cases hsame : f.getLsbD n = f.getLsbD (n + 1)
    · rw [if_pos hsame, ← hsame, ← ih]
      omega
    · rw [if_neg hsame, Bool.eq_not.mpr (Ne.symm hsame), Bool.not_eq, Ne, ← ih]
      omega

/-- With space pending before the first bit and after the last, the number of pulses is even (R94 (c)). -/
theorem length_repetition_even {f : FrameWord} (heven : f.getLsbD 0 = false) : (repetition f).length % 2 = 0 := by
  have hparity := equalNeighboursBelow_parity f 33
  rw [heven] at hparity
  rw [length_repetition, topBitClear, equalNeighbours_eq]
  cases htop : f.getLsbD 33 with
  | false =>
    have hodd : (equalNeighboursBelow f 33 + 33) % 2 = 0 := hparity.mpr htop
    rw [if_neg (by decide)]
    omega
  | true =>
    have hnotOdd : ¬ (equalNeighboursBelow f 33 + 33) % 2 = 0 := by rw [hparity, htop]; decide
    rw [if_pos rfl]
    omega

theorem length_pulses (f : FrameWord) : (pulses f).length = 3 * (repetition f).length + 1 := by
  simp only [pulses_eq, List.length_append, List.length_singleton]
  omega

/-- `z + E` over the 105 frames of R74 (f), one evaluation for each arm and temperature field. The bits outside the two
give 21 equal neighbours, the temperature 1 to 3, and the arm with the top bit 0 to 4 (R94 (c)). -/
theorem length_repetition_builtArms : ∀ a ∈ builtArms, ∀ t : BitVec 4, t ≠ 0 →
    22 ≤ topBitClear (kindFrame a.1 a.2 t) + equalNeighbours (kindFrame a.1 a.2 t) ∧
      topBitClear (kindFrame a.1 a.2 t) + equalNeighbours (kindFrame a.1 a.2 t) ≤ 28 := by
  decide

/-- Settles O33: the count is `length_repetition`; its range is that of `z + E` over the buildable frames. -/
theorem pulseCounts : Obligations.PulseCounts := by
  refine ⟨fun f heven => ⟨length_repetition f, length_repetition_even heven, length_pulses f⟩, fun f hf => ?_⟩
  obtain ⟨a, ha, t, ht, rfl⟩ := buildable_iff_exists_kindFrame.mp hf
  have hcount := length_repetition (kindFrame a.1 a.2 t)
  have hrange := length_repetition_builtArms a ha t ht
  omega

/-! Frames whose bit 0 is 1 (R93). -/

/-- Where bit 0 is 1 the last bit step sends a space last: its first half, the second being left pending. -/
theorem exists_bitRun_eq_append_space {f : FrameWord} (hodd : f.getLsbD 0 = true) (n p : Nat) (nt : PulseType) :
    ∃ l m, (bitRun (bitsBelow f (n + 1)) p nt).1 = l ++ [.space m] := by
  induction n generalizing p nt with
  | zero =>
    rw [bitsBelow, bitRun_cons, hodd]
    cases nt
    · exact ⟨[], p + 1, rfl⟩
    · exact ⟨[.mark p], 1, rfl⟩
  | succ n ih =>
    obtain ⟨l, m, hl⟩ := ih 1 (pulseStep p nt (f.getLsbD (n + 1))).2.2
    rw [bitsBelow, bitRun_cons, hl, ← List.append_assoc]
    exact ⟨_, m, rfl⟩

theorem exists_repetition_eq_append_two_spaces {f : FrameWord} (hodd : f.getLsbD 0 = true) :
    ∃ l n, repetition f = l ++ [.space n, .space 1] := by
  obtain ⟨l, n, hl⟩ := exists_bitRun_eq_append_space hodd 33 3 .space
  exact ⟨.mark 3 :: l, n, by rw [repetition_eq, hl]; simp⟩

theorem not_alternates_of_two_spaces (l l' : List TxEvent) (m n : Nat) :
    ¬ alternates (l ++ [.space m, .space n] ++ l') := by
  intro h
  have hpair : alternates [.space m, .space n] := (List.isChain_append.mp (List.isChain_append.mp h).1).2.1
  simp [alternates, TxEvent.pulseType] at hpair

/-- Settles O35: the last bit step sends a space and leaves a mark pending, which the trail sends as a space. -/
theorem oddFrameEndsInTwoSpaces : Obligations.OddFrameEndsInTwoSpaces := by
  refine ⟨fun f hodd => ⟨exists_repetition_eq_append_two_spaces hodd, totalUnits_repetition f, ?twoSpaces,
    fun s => ⟨_, exec_peEncode s f, rfl, ?pending⟩⟩, ?frameOne⟩
  case twoSpaces =>
    obtain ⟨l, n, hl⟩ := exists_repetition_eq_append_two_spaces hodd
    have hpulses : pulses f = l ++ [.space n, .space 1] ++ (repetition f ++ repetition f ++ [.mark 4]) := by
      rw [← hl, pulses_eq]; simp
    rw [hpulses]
    exact not_alternates_of_two_spaces _ _ _ _
  case pending => exact if_pos hodd
  case frameOne => exact ⟨(repetition 0x000000001).take 66, by decide⟩

/-! PE.ENCODE (R90). -/

theorem length_events (f : FrameWord) : (events f).length = 3 * (repetition f).length + 4 := by
  simp only [events, List.length_append, List.length_cons, List.length_nil, length_pulses]
  omega

/-- Settles O27: the operation ends in `State.transmitted`, whose appended events are `events` of the latched frame. -/
theorem peEncodeTransmitsTheFrame : Obligations.PeEncodeTransmitsTheFrame := by
  refine ⟨fun p hrst hop => ?decodes, fun s f => ⟨_, exec_peEncode s f, rfl, ?events, rfl, rfl, rfl, rfl⟩, ?length⟩
  case decodes => simp [decode, decodePorts, hrst, hop]
  case events => simp [events, pulses_eq, Config.carrierHz]
  case length =>
    have hcount : topBitClear 0x270480002 + equalNeighbours 0x270480002 = 24 := by decide
    rw [length_events, length_repetition, Nat.add_assoc, hcount]

end Sys2Proof.Machine
end

section
/-! The control call: what CONTROL does (R100, R104), its source flow as four operations (R55, R103), NOP (R101) and the
reserved codes (R102). -/

namespace Sys2Proof.Machine

/-! NOP and the reserved codes (R101, R102). -/

/-- Settles O39, by reading the decoder and the arm of NOP. -/
theorem nopChangesNothing : Obligations.NopChangesNothing := by
  refine ⟨fun p hrst hop => ?decodes, fun s => rfl⟩
  case decodes => simp [decode, decodePorts, hrst, hop]

theorem decodePorts_of_reserved {p : Ports} (hrst : p.rst = 0) (hop : p.op = 0b110 ∨ p.op = 0b111) :
    ∃ low, decodePorts p = .opReserved low := by
  rcases hop with hop | hop <;> simp [decodePorts, hrst, hop]

/-- Settles O40: between operations the step runs OP.RESERVED, whose only answer is the refusal. -/
theorem reservedCodesAreRefused : Obligations.ReservedCodesAreRefused := by
  refine ⟨fun s low => rfl, fun s p hs hrst hop => ?presented⟩
  case presented =>
    obtain ⟨low, hdecode⟩ := decodePorts_of_reserved hrst hop
    rw [step_present hs p, hdecode]
    rfl

/-! The control call (R100). -/

/-- From a previous mode that is not Off no request builds a frame that toggles the power (R73). -/
theorem power_build_of_prev_ne_off {prev : ModeCode} (h : prev ≠ Mode.off) (m : ModeCode) (temp : TempWord) :
    (unpackFrame (build m temp prev)).power = 0 :=
  (unpackFrame_build_power m temp prev).trans (modeAndPower_power_of_prev_ne_off h m)

/-- The frame of the rule's example: Cool at 24 degrees from Off (R100). -/
theorem build_cool_24_of_prev_off {prev : ModeCode} (h : prev = Mode.off) :
    build Mode.cool 0x1800 prev = 0x270480002 := by
  subst h; decide

/-- Settles O36: the call is `exec_control`, and each corner case is a fact about the power field that `build` writes
from the mode which the call before it stored. -/
theorem controlIsTheWholeFlow : Obligations.ControlIsTheWholeFlow := by
  refine ⟨fun p hrst hop => ?decodes,
    fun s m temp hreset => ⟨_, exec_control m temp hreset, rfl, rfl, rfl, rfl, rfl, rfl⟩,
    fun s temp hreset hoff => ⟨_, _, exec_control _ temp hreset, ?toggles, exec_control _ temp hreset, ?togglesOnce⟩,
    fun s temp hreset => ⟨_, exec_control _ temp hreset, ?offPower, rfl⟩,
    fun s m temp temp' hreset hm =>
      ⟨_, _, exec_control m temp hreset, ?offFrame, rfl, exec_control _ temp' hreset, ?noToggle⟩,
    fun s hreset hoff => ⟨_, exec_control _ _ hreset, ?frame, rfl, ?appended, ?length⟩⟩
  case decodes => simp [decode, decodePorts, hrst, hop]
  case toggles => exact (build_of_requestsOn (.inl rfl) temp s.prevMode).2.mpr hoff
  case togglesOnce => exact power_build_of_prev_ne_off (prev := Mode.cool) (by decide) Mode.cool temp
  case offPower => exact unpackFrame_build_power Mode.off temp s.prevMode
  case offFrame =>
    have harm := modeAndPower_of_not_recognized hm s.prevMode
    exact (unpackFrame_build_mode m temp s.prevMode).trans (congrArg Prod.fst harm)
  case noToggle =>
    obtain ⟨_, _, _, hne⟩ := ne_of_not_recognized hm
    exact power_build_of_prev_ne_off hne Mode.cool temp'
  case frame => exact build_cool_24_of_prev_off hoff
  case appended => exact congrArg (s.tx ++ events ·) (build_cool_24_of_prev_off hoff)
  case length =>
    obtain ⟨_, _, hlength⟩ := peEncodeTransmitsTheFrame
    exact hlength

theorem allPulses_pulses (f : FrameWord) : allPulses (pulses f) :=
  fun e he => (shortPulse_of_mem_pulses f e he).isPulse

/-- Settles O38: the call appends `events` of its frame, which are these. -/
theorem oneTransmissionPerControl : Obligations.OneTransmissionPerControl := by
  intro s m temp hreset
  exact ⟨_, exec_control m temp hreset, rfl, allPulses_pulses _, rfl⟩

/-! `CONTROL.X` (R55, R103). -/

/-- Between operations a line runs the operation whose word it presents, and the rest of the run follows (R54, R136). -/
theorem runLines_cons_of_exec {s t : State} {l : Line} {rest : List Line} {o : Host.Outcome State Fault Refusal}
    (i : Instr) (hs : betweenOperations s) (hi : encode i = .ports (l.ports s))
    (h : exec i (s.present (l.ports s)) = .next t) (hrest : runLines rest t = o) : runLines (l :: rest) s = o := by
  rw [runLines, step_present hs, decodePorts_of_encode hi, h]
  exact hrest

/-- The four lines read the tracker, build from what the read shows, store the request and transmit what was built; the
host's last presentation is that of PE.ENCODE. -/
theorem runLines_controlX {s : State} (m : ModeOperand) (temp : TempOperand) (hs : betweenOperations s)
    (hreset : s.resetDone = true) :
    runLines (controlX m temp) s =
      .next
        ((((s.setModeOut s.prevMode).setFrame (build m.code temp.word s.prevMode)).setPrevMode m.code).transmitted.present
          { Ports.zero with op := 0b011, frameIn := build m.code temp.word s.prevMode }) := by
  refine runLines_cons_of_exec .trkRead hs rfl (exec_trkRead hreset) ?build
  refine runLines_cons_of_exec (.feBuild m.code temp.word s.prevMode) hs rfl rfl ?store
  refine runLines_cons_of_exec (.trkUpdate m.code) hs rfl rfl ?transmit
  exact runLines_cons_of_exec (.peEncode (build m.code temp.word s.prevMode)) hs rfl (exec_peEncode _ _) rfl

/-- Settles O37: both ends are one transmission of the same frame from states that differ in `MODE_OUT` and in what is
presented. -/
theorem controlEqualsFourOperations : Obligations.ControlEqualsFourOperations := by
  intro s m temp hs hreset
  exact ⟨_, _, exec_control m temp hreset, runLines_controlX (.literal m) (.literal temp) hs hreset, rfl, rfl⟩

end Sys2Proof.Machine
end

section
/-! The ways a step can stop (R110, R113, R127): what each kind of word that `fetch` finds can be refused for. -/

namespace Sys2Proof.Machine

/-! Words of no row (log entry 15). -/

/-- The frame matches none of the six rows of R56. -/
def matchesNoFrameRow (f : FrameWord) : Prop :=
  f &&& 0x1FF87FFFF ≠ 0x070000002 ∧ f &&& 0x1FF87FFFF ≠ 0x0B0000002 ∧ f &&& 0x1FF87FFFF ≠ 0x0F0000002 ∧
    f &&& 0x3FF87FFFF ≠ 0x1F0000002 ∧ f &&& 0x1FF87FFFF ≠ 0x130000002 ∧ f &&& 0x1FF87FFFF ≠ 0x170000002

theorem decodeFrame_error {f : FrameWord} {why : Reject} (h : decodeFrame f = .error why) :
    matchesNoFrameRow f ∧ why = .noFrameKind f := by
  unfold decodeFrame at h
  split_ifs at h with hcool hheat hauto hoff hdry hfan
  cases h
  exact ⟨⟨hcool, hheat, hauto, hoff, hdry, hfan⟩, rfl⟩

theorem decodeTx_error {w : TxWord} {why : Reject} (h : decodeTx w = .error why) :
    5 ≤ (txKind w).toNat ∧ why = .noEventKind (txKind w) := by
  unfold decodeTx at h
  split_ifs at h with hbegin hcarrier hspace hmark hsend
  cases h
  exact ⟨by bv_omega, rfl⟩

/-! What a refused step can have fetched. -/

/-- No step faults (R110). -/
theorem step_answers (s : State) : (∃ t, step s = .next t) ∨ ∃ r, step s = .refused r := by
  cases hdecode : decode s.fetch with
  | error why => exact .inr ⟨_, step_of_reject hdecode⟩
  | ok i => rw [step_of_decode hdecode]; exact exec_answers i s

/-- The rows that `exec` can refuse are operations of the ports (R102, R127). -/
theorem encode_of_exec_refused {i : Instr} {s : State} {r : Refusal} (h : exec i s = .refused r) :
    ∃ p, encode i = .ports p := by
  rcases exec_refused h with ⟨⟨low, rfl⟩, _⟩ | ⟨rfl | ⟨m, temp, rfl⟩, _⟩ <;> exact ⟨_, rfl⟩

/-- A step that fetches no ports can be refused by the decoder only: a row of another format is encoded as the word it
was decoded from, and `exec` refuses rows of the ports alone. -/
theorem step_refused_of_not_ports {s : State} {r : Refusal} (hfetch : ∀ p, s.fetch ≠ .ports p)
    (h : step s = .refused r) : ∃ why, decode s.fetch = .error why ∧ r = .undecodable why := by
  rcases step_refused h with hreject | ⟨i, hdecode, hexec⟩
  · exact hreject
  · obtain ⟨q, hq⟩ := encode_of_exec_refused hexec
    rcases encodeOfDecode _ _ hdecode with ⟨hsame, _⟩ | ⟨p, _, hp, _⟩
    · exact absurd (hsame.symm.trans hq) (hfetch q)
    · exact absurd hp (hfetch p)

theorem phase_of_step_refused {s : State} {r : Refusal} (h : step s = .refused r) : s.phase = .idle := by
  by_contra hphase
  cases (step_of_not_idle hphase).symm.trans h

theorem step_refused_of_ports {s : State} {p : Ports} {r : Refusal} (hs : betweenOperations s)
    (hp : s.request = .ports p) (h : step s = .refused r) :
    p.rst = 0 ∧ (((p.op = 0b110 ∨ p.op = 0b111) ∧ r = .reservedOp) ∨
      ((p.op = 0b001 ∨ p.op = 0b100) ∧ s.resetDone = false ∧ r = .beforeReset)) := by
  have hdecode : decode s.fetch = .ok (decodePorts p) := by rw [State.fetch_between hs, hp]; rfl
  exact exec_decodePorts_refused ((step_of_decode hdecode).symm.trans h)

theorem step_refused_of_frameWord {s : State} {f : FrameWord} {r : Refusal} (hs : betweenOperations s)
    (hf : s.request = .frameWord f) (h : step s = .refused r) :
    matchesNoFrameRow f ∧ r = .undecodable (.noFrameKind f) := by
  have hfetch : s.fetch = .f34 f := by rw [State.fetch_between hs, hf]; rfl
  obtain ⟨why, hdecode, rfl⟩ := step_refused_of_not_ports (by simp [hfetch]) h
  obtain ⟨hnone, rfl⟩ := decodeFrame_error (hfetch ▸ hdecode : decode (.f34 f) = _)
  exact ⟨hnone, rfl⟩

theorem step_refused_of_txCall {s : State} {w : TxWord} {r : Refusal} (hphase : s.phase = .idle)
    (hw : s.txCall = some w) (h : step s = .refused r) :
    5 ≤ (txKind w).toNat ∧ r = .undecodable (.noEventKind (txKind w)) := by
  have hfetch := State.fetch_txCall hphase hw
  obtain ⟨why, hdecode, rfl⟩ := step_refused_of_not_ports (by simp [hfetch]) h
  obtain ⟨hkind, rfl⟩ := decodeTx_error (hfetch ▸ hdecode : decode (.txw w) = _)
  exact ⟨hkind, rfl⟩

/-- Settles O47: a step that answers no next state is refused in phase IDLE, and what it fetched there is an event call,
the ports or a frame word. -/
theorem onlyReservedCodesAndForeignWordsStop : Obligations.OnlyReservedCodesAndForeignWordsStop := by
  refine ⟨fun s => ?stops, fun s m temp hreset => ?beforeReset⟩
  case beforeReset =>
    exact ⟨State.ifReset_of_not_resetDone hreset _, State.ifReset_of_not_resetDone hreset _⟩
  case stops =>
    refine (step_answers s).imp_right fun ⟨r, hr⟩ => ?_
    have hphase := phase_of_step_refused hr
    refine ⟨hphase, ?_⟩
    cases hcall : s.txCall with
    | some w =>
      obtain ⟨hkind, rfl⟩ := step_refused_of_txCall hphase hcall hr
      exact .inr (.inr (.inr ⟨w, rfl, hkind, hr⟩))
    | none =>
      cases hrequest : s.request with
      | ports p =>
        obtain ⟨hrst, ⟨hop, rfl⟩ | ⟨hop, hreset, rfl⟩⟩ := step_refused_of_ports ⟨hphase, hcall⟩ hrequest hr
        · exact .inl ⟨rfl, p, rfl, hrst, hop, hr⟩
        · exact .inr (.inl ⟨rfl, hreset, p, rfl, hrst, hop, hr⟩)
      | frameWord f =>
        obtain ⟨⟨hcool, hheat, hauto, hoff, hdry, hfan⟩, rfl⟩ :=
          step_refused_of_frameWord ⟨hphase, hcall⟩ hrequest hr
        exact .inr (.inr (.inl ⟨rfl, f, rfl, hcool, hheat, hauto, hoff, hdry, hfan, hr⟩))

end Sys2Proof.Machine
end

section
/-! RESET: what it sets (R125), that `RST` overrides `OP` while nothing presented enters a transmission (R126), and
that every run which begins with it completes (R136). -/

namespace Sys2Proof.Machine

/-! RESET (R125). -/

theorem decodePorts_of_rst {p : Ports} (hrst : p.rst = 1) : decodePorts p = .reset p.initMode := by
  simp [decodePorts, hrst]

/-- RESET leaves the reset state with its operand, whatever the state was (R23, R125). -/
theorem exec_reset (m : ModeCode) (s : State) :
    exec (.reset m) s = .next { State.reset with prevMode := m, modeOut := m, request := s.request } := rfl

/-- Between operations `RST = 1` is RESET, whatever `OP` holds (R126). -/
theorem step_present_of_rst {s : State} {p : Ports} (hs : betweenOperations s) (hrst : p.rst = 1) :
    step (s.present p) = exec (.reset p.initMode) (s.present p) := by
  rw [step_present hs, decodePorts_of_rst hrst]

/-- Settles O41: `exec_reset` gives every register, and after it TRK.READ is `exec_trkRead`. -/
theorem resetSetsEveryRegister : Obligations.ResetSetsEveryRegister := by
  refine ⟨fun p hrst => ?decodes, fun s m => ?registers, fun s => ?readsBack⟩
  case decodes => exact congrArg _ (decodePorts_of_rst hrst)
  case registers => exact ⟨_, exec_reset m s, rfl, rfl, rfl, rfl, rfl, rfl, rfl, rfl, rfl, rfl⟩
  case readsBack => exact ⟨_, _, exec_reset Mode.off s, exec_trkRead rfl, rfl⟩

/-! What is presented while a transmission runs (R34, R126): every update of the state commutes with the host's
`present`, since none reads or writes the request. -/

section
variable (s : State) (p : Ports)

@[simp] theorem State.present_txEmit (e : TxEvent) : (s.present p).txEmit e = (s.txEmit e).present p := rfl

@[simp] theorem State.present_setPulse (n : BitVec 3) (nt : PulseType) :
    (s.present p).setPulse n nt = (s.setPulse n nt).present p := rfl

@[simp] theorem State.present_setSeq (ph : Phase) (rep : BitVec 2) (idx : BitVec 6) :
    (s.present p).setSeq ph rep idx = (s.setSeq ph rep idx).present p := rfl

@[simp] theorem State.present_currentBit : (s.present p).currentBit = s.currentBit := rfl

@[simp] theorem State.present_advance : (s.present p).advance = s.advance.present p := by
  by_cases hlast : s.bitIdx = 0#6 <;> simp [State.advance, hlast]

theorem State.present_bitStep : (s.present p).bitStep = s.bitStep.present p := by
  cases hnext : s.nextType <;> cases hbit : s.currentBit <;>
    simp [State.bitStep, hnext, hbit, State.stepS0, State.stepS1, State.stepM0, State.stepM1]

theorem State.present_trail : (s.present p).trail = s.trail.present p := by
  by_cases hlast : s.rep = 2
  · rw [State.trail_of_rep_eq hlast, State.trail_of_rep_eq (s := s.present p) hlast]; rfl
  · rw [State.trail_of_rep_ne hlast, State.trail_of_rep_ne (s := s.present p) hlast]; rfl

/-- The micro-step at the sequencer's position is the same whatever is presented (R126). -/
theorem State.present_microStep : (s.present p).microStep = s.microStep.present p := by
  cases hphase : s.phase with
  | idle => simp [State.microStep, hphase]
  | header => simp [State.microStep, hphase, State.header]
  | bits => simp [State.microStep, hphase, State.present_bitStep]
  | trail => simp [State.microStep, hphase, State.present_trail]
  | footer => simp [State.microStep, hphase, State.footer]

/-- So is a call of `TxEmit`. -/
theorem State.present_serveCall (w : TxWord) (e : TxEvent) :
    (s.present p).serveCall w e = (s.serveCall w e).present p := by
  by_cases hcall : s.txCall = some w ∧ e.word = w ∧ e.produced = true
  · obtain ⟨hw, hword, hproduced⟩ := hcall
    rw [State.serveCall_of_call hw hword hproduced, State.serveCall_of_call (s := s.present p) hw hword hproduced]
    rfl
  · simp [State.serveCall, hcall]

end

/-- Settles O43: between operations the decoder looks at `RST` first; inside a transmission a step is a micro-step or
the `Send`, and both commute with what is presented. -/
theorem rstOverridesOpBetweenOperations : Obligations.RstOverridesOpBetweenOperations := by
  refine ⟨fun s p hs hrst => step_present_of_rst hs hrst, fun s p hinside => ?_⟩
  by_cases hphase : s.phase = .idle
  · have hcall : s.txCall = sendCall := hinside.resolve_left (not_not_intro hphase)
    exact ⟨_, step_of_sendCall hphase hcall,
      (step_of_sendCall (s := s.present p) hphase hcall).trans (congrArg _ (s.present_serveCall p _ _))⟩
  · exact ⟨_, step_of_not_idle hphase,
      (step_of_not_idle (s := s.present p) hphase).trans (congrArg _ (s.present_microStep p))⟩

/-! Runs that begin with RESET (R136). -/

/-- A RESET has been performed, and the TX stream is a list of whole transmissions with no operation in progress. -/
def readyAfterReset (s : State) : Prop := s.resetDone = true ∧ streamInvariant s

/-- That a RESET has been performed stays true (R127). -/
theorem resetDone_exec {i : Instr} {s t : State} (hdone : s.resetDone = true) (h : exec i s = .next t) :
    t.resetDone = true := by
  obtain ⟨_, _, _, hkept | ⟨m, rfl⟩, _⟩ := registersHaveOnlyTheirWriters _ _ _ h
  · exact hkept.trans hdone
  · cases h; rfl

/-- RESET establishes it, from any state between operations and with anything on the stream (R125). -/
theorem readyAfterReset_step_of_rst {s : State} {p : Ports} (hs : betweenOperations s) (hrst : p.rst = 1) :
    ∃ t, step (s.present p) = .next t ∧ readyAfterReset t :=
  ⟨_, (step_present_of_rst hs hrst).trans (exec_reset _ _), rfl, ⟨rfl, rfl⟩, [], rfl⟩

/-- Every operation without a reserved code completes and keeps it (R34, R102). -/
theorem readyAfterReset_step_present {s : State} {q : Ports} (hs : readyAfterReset s) (hq : servable q) :
    ∃ t, step (s.present q) = .next t ∧ readyAfterReset t := by
  obtain ⟨hdone, hstream⟩ := hs
  have hbetween : betweenOperations s := hstream.1
  obtain ⟨t, hexec, _⟩ := exec_decodePorts_of_servable (s := s.present q) hbetween hdone hq
  exact ⟨t, (step_present hbetween q).trans hexec, resetDone_exec (s := s.present q) hdone hexec,
    streamInvariant_exec (s := s.present q) (requestable_decodePorts q) hstream hexec⟩

/-- Settles O54: RESET makes the state ready, and an induction over the operations after it keeps it so. -/
theorem runsOfOperationsComplete : Obligations.RunsOfOperationsComplete := by
  intro ps p s hs hrst hps
  obtain ⟨s', hreset, hready⟩ := readyAfterReset_step_of_rst hs hrst
  obtain ⟨t, hrun, _, hstream⟩ := runOps_keeps (fun _ _ => readyAfterReset_step_present) ps hready hps
  exact ⟨t, (runOps_cons_of_step hreset ps).trans hrun, hstream⟩

end Sys2Proof.Machine
end
